-- ==== Sys2Proof/Word.lean ====
section
/-! DEFINITION. The plain words of the SRM (spec/00_scope.md rule R7): every value has a stated width, `uN` and `sN`
are both bit patterns of width N, and `int(..)` is `BitVec.toNat` or `BitVec.toInt` where a rule reads one. -/

namespace Sys2Proof

/-- A u8: a byte on the wire, a register pointer, a checksum (R7, R51, R175). -/
abbrev Byte := BitVec 8

/-- A u16: the value of one whole sensor register (R51, R68). -/
abbrev Reg16 := BitVec 16

/-- A 7-bit I2C slave address (R50). -/
abbrev SlaveAddr := BitVec 7

/-- A u17 ring entry, unit 1/160 K (R24). -/
abbrev Sample := BitVec 17

/-- One 48-bit command word, `CMD_W = 48` (R6, R93). -/
abbrev CmdWord := BitVec 48

end Sys2Proof
end

