-- ==== Sys2Proof/Syntax.lean ====
section
/-! DEFINITION. The SRM command set (spec/30_encoding.md rule R97): one constructor per row of the opcode map, with the
operands of its format (R94, R95) at exactly the width of their fields. No operand is scaled, shifted or sign-extended
(R96). -/

namespace Sys2Proof

/-- The 24 commands of rule R97, in the table's order. An operand's type is its field's width, so a value that does not
fit its field cannot be written here: `VAL3` 1 to 6 in SETMODE, `ID` 8 to 63 and the like are legal operands (R100). -/
inductive Instr where
  /-- WRREG, format W, rule R120. -/
  | wrreg (id : BitVec 6) (addr : Byte) (data : Reg16)
  /-- RDREG, format R, rule R121. -/
  | rdreg (id : BitVec 6) (addr : Byte)
  /-- SWRST, format D, rule R132. -/
  | swrst (id : BitVec 6)
  /-- GETMODE, format D, rule R133. -/
  | getmode (id : BitVec 6)
  /-- SETMODE, format F3, rule R134. -/
  | setmode (id : BitVec 6) (mode : BitVec 3)
  /-- GETRATE, format D, rule R135. -/
  | getrate (id : BitVec 6)
  /-- SETRATE, format F3, rule R136. -/
  | setrate (id : BitVec 6) (rate : BitVec 3)
  /-- GETDRDYEN, format D, rule R137. -/
  | getdrdyen (id : BitVec 6)
  /-- SETDRDYEN, format F1, rule R138. -/
  | setdrdyen (id : BitVec 6) (en : BitVec 1)
  /-- GETDRDY, format D, rule R139. -/
  | getdrdy (id : BitVec 6)
  /-- CLRDRDY, format D, rule R140. -/
  | clrdrdy (id : BitVec 6)
  /-- GETMFGID, format D, rule R141. -/
  | getmfgid (id : BitVec 6)
  /-- GETDEVID, format D, rule R142. -/
  | getdevid (id : BitVec 6)
  /-- GETAMB, format D, rule R155. -/
  | getamb (id : BitVec 6)
  /-- GETOBJ, format D, rule R156. -/
  | getobj (id : BitVec 6)
  /-- GETOBJTC, format T, rule R164. The ring and the sensor are independent operands. -/
  | getobjtc (id : BitVec 6) (ring : BitVec 3)
  /-- RINGRD, format HR, rule R165. -/
  | ringrd (ring : BitVec 3) (idx : BitVec 2)
  /-- RINGWR, format HW, rule R166. -/
  | ringwr (ring : BitVec 3) (idx : BitVec 2) (val : Sample)
  /-- RINGCLR, format HC, rule R167. -/
  | ringclr (ring : BitVec 3)
  /-- CRC8, format C, rule R177. The bytes beyond the first `len` are part of the word and are ignored (R95). -/
  | crc8 (len : BitVec 2) (b0 b1 b2 : Byte)
  /-- CRCCHK, format CK, rule R178. -/
  | crcchk (b0 b1 crc : Byte)
  /-- SHTINIT, format N, rule R186. -/
  | shtinit
  /-- SHTTEMP, format N, rule R188. -/
  | shttemp
  /-- SHTHUM, format N, rule R189. -/
  | shthum
deriving DecidableEq, Repr

end Sys2Proof
end

