-- ==== Sys2Proof/WellFormed.lean ====
section
/-! DEFINITION. The written form of a command (spec/30_encoding.md rule R101) and what makes a line well formed: the
operand count of its mnemonic, and every number inside the field that holds it (R94). An instance number of 64 or more
is refused here (spec/93_implementation_defined.md U6: not expressible in the 6-bit field), as is every other number
that does not fit; nothing else is checked (R100). -/

namespace Sys2Proof

/-- The 24 mnemonics of rule R97. -/
inductive Mnemonic where
  | WRREG | RDREG | SWRST | GETMODE | SETMODE | GETRATE
  | SETRATE | GETDRDYEN | SETDRDYEN | GETDRDY | CLRDRDY | GETMFGID
  | GETDEVID | GETAMB | GETOBJ | GETOBJTC | RINGRD | RINGWR
  | RINGCLR | CRC8 | CRCCHK | SHTINIT | SHTTEMP | SHTHUM
deriving DecidableEq, Repr

/-- The widths of a mnemonic's operands, in the order R101 writes them (widths from R94). -/
def Mnemonic.operandWidths : Mnemonic → List Nat
  | .WRREG => [6, 8, 16]
  | .RDREG => [6, 8]
  | .SWRST => [6]
  | .GETMODE => [6]
  | .SETMODE => [6, 3]
  | .GETRATE => [6]
  | .SETRATE => [6, 3]
  | .GETDRDYEN => [6]
  | .SETDRDYEN => [6, 1]
  | .GETDRDY => [6]
  | .CLRDRDY => [6]
  | .GETMFGID => [6]
  | .GETDEVID => [6]
  | .GETAMB => [6]
  | .GETOBJ => [6]
  | .GETOBJTC => [6, 3]
  | .RINGRD => [3, 2]
  | .RINGWR => [3, 2, 17]
  | .RINGCLR => [3]
  | .CRC8 => [2, 8, 8, 8]
  | .CRCCHK => [8, 8, 8]
  | .SHTINIT => []
  | .SHTTEMP => []
  | .SHTHUM => []

/-- One line of a program: a mnemonic and its operands as numbers (R101). -/
structure Line where
  op : Mnemonic
  args : List Nat
deriving DecidableEq, Repr

/-- As many numbers as fields, each number inside its field. -/
def operandsFit : List Nat → List Nat → Bool
  | [], [] => true
  | w :: ws, a :: as => decide (a < 2 ^ w) && operandsFit ws as
  | _, _ => false

/-- A line is well formed when its operands are as many as R101 lists and each fits its field. -/
def Line.wellFormed (l : Line) : Bool := operandsFit l.op.operandWidths l.args

/-- The line a command is written as (R101). -/
def Instr.line : Instr → Line
  | .wrreg id addr data => ⟨.WRREG, [id.toNat, addr.toNat, data.toNat]⟩
  | .rdreg id addr => ⟨.RDREG, [id.toNat, addr.toNat]⟩
  | .swrst id => ⟨.SWRST, [id.toNat]⟩
  | .getmode id => ⟨.GETMODE, [id.toNat]⟩
  | .setmode id val3 => ⟨.SETMODE, [id.toNat, val3.toNat]⟩
  | .getrate id => ⟨.GETRATE, [id.toNat]⟩
  | .setrate id val3 => ⟨.SETRATE, [id.toNat, val3.toNat]⟩
  | .getdrdyen id => ⟨.GETDRDYEN, [id.toNat]⟩
  | .setdrdyen id val1 => ⟨.SETDRDYEN, [id.toNat, val1.toNat]⟩
  | .getdrdy id => ⟨.GETDRDY, [id.toNat]⟩
  | .clrdrdy id => ⟨.CLRDRDY, [id.toNat]⟩
  | .getmfgid id => ⟨.GETMFGID, [id.toNat]⟩
  | .getdevid id => ⟨.GETDEVID, [id.toNat]⟩
  | .getamb id => ⟨.GETAMB, [id.toNat]⟩
  | .getobj id => ⟨.GETOBJ, [id.toNat]⟩
  | .getobjtc id ring => ⟨.GETOBJTC, [id.toNat, ring.toNat]⟩
  | .ringrd ring idx => ⟨.RINGRD, [ring.toNat, idx.toNat]⟩
  | .ringwr ring idx val17 => ⟨.RINGWR, [ring.toNat, idx.toNat, val17.toNat]⟩
  | .ringclr ring => ⟨.RINGCLR, [ring.toNat]⟩
  | .crc8 len b0 b1 b2 => ⟨.CRC8, [len.toNat, b0.toNat, b1.toNat, b2.toNat]⟩
  | .crcchk b0 b1 b2 => ⟨.CRCCHK, [b0.toNat, b1.toNat, b2.toNat]⟩
  | .shtinit => ⟨.SHTINIT, []⟩
  | .shttemp => ⟨.SHTTEMP, []⟩
  | .shthum => ⟨.SHTHUM, []⟩

/-- Every operand of the command fits the field that holds it. The operand types of `Instr` make this true of every
command (family `OperandsFit` of Laws/PerInstr.lean): it is checked where numbers come in, at `Line`. -/
def Instr.wellFormed (i : Instr) : Bool := i.line.wellFormed

/-- The command a line stands for: R101's table read from left to right, a line that is not well formed refused. -/
def Line.assemble (l : Line) : Option Instr :=
  if l.wellFormed then
    match l.op, l.args with
    | .WRREG, [id, addr, data] => some (.wrreg (.ofNat 6 id) (.ofNat 8 addr) (.ofNat 16 data))
    | .RDREG, [id, addr] => some (.rdreg (.ofNat 6 id) (.ofNat 8 addr))
    | .SWRST, [id] => some (.swrst (.ofNat 6 id))
    | .GETMODE, [id] => some (.getmode (.ofNat 6 id))
    | .SETMODE, [id, val3] => some (.setmode (.ofNat 6 id) (.ofNat 3 val3))
    | .GETRATE, [id] => some (.getrate (.ofNat 6 id))
    | .SETRATE, [id, val3] => some (.setrate (.ofNat 6 id) (.ofNat 3 val3))
    | .GETDRDYEN, [id] => some (.getdrdyen (.ofNat 6 id))
    | .SETDRDYEN, [id, val1] => some (.setdrdyen (.ofNat 6 id) (.ofNat 1 val1))
    | .GETDRDY, [id] => some (.getdrdy (.ofNat 6 id))
    | .CLRDRDY, [id] => some (.clrdrdy (.ofNat 6 id))
    | .GETMFGID, [id] => some (.getmfgid (.ofNat 6 id))
    | .GETDEVID, [id] => some (.getdevid (.ofNat 6 id))
    | .GETAMB, [id] => some (.getamb (.ofNat 6 id))
    | .GETOBJ, [id] => some (.getobj (.ofNat 6 id))
    | .GETOBJTC, [id, ring] => some (.getobjtc (.ofNat 6 id) (.ofNat 3 ring))
    | .RINGRD, [ring, idx] => some (.ringrd (.ofNat 3 ring) (.ofNat 2 idx))
    | .RINGWR, [ring, idx, val17] => some (.ringwr (.ofNat 3 ring) (.ofNat 2 idx) (.ofNat 17 val17))
    | .RINGCLR, [ring] => some (.ringclr (.ofNat 3 ring))
    | .CRC8, [len, b0, b1, b2] => some (.crc8 (.ofNat 2 len) (.ofNat 8 b0) (.ofNat 8 b1) (.ofNat 8 b2))
    | .CRCCHK, [b0, b1, b2] => some (.crcchk (.ofNat 8 b0) (.ofNat 8 b1) (.ofNat 8 b2))
    | .SHTINIT, [] => some .shtinit
    | .SHTTEMP, [] => some .shttemp
    | .SHTHUM, [] => some .shthum
    | _, _ => none
  else none

/-! The symbolic constants of R101. -/

/-- `POWER_DOWN`, a value of `VAL3` in SETMODE. -/
def powerDown : Nat := 0
/-- `CONTINUOUS`, a value of `VAL3` in SETMODE. -/
def continuous : Nat := 7
/-- `RATE_4`: four conversions per second (the meaning of a code is the sensor's, R32). -/
def rate4 : Nat := 0
/-- `RATE_2`. -/
def rate2 : Nat := 1
/-- `RATE_1`. -/
def rate1 : Nat := 2
/-- `RATE_0_5`. -/
def rate05 : Nat := 3
/-- `RATE_0_25`. -/
def rate025 : Nat := 4

end Sys2Proof
end

