-- ==== Sys2Proof/Decode.lean ====
section
/-! DEFINITION. The command word: fields (spec/30_encoding.md rule R94), the opcode map (R97), the decoder, total on
every 48-bit word with illegal words rejected by name (R98, R99), and the encoder written from the formats of R95. -/

namespace Sys2Proof

/-! ## Fields (R94) -/

/-- `OPC`, bits 47:40. -/
def opcOf (w : CmdWord) : BitVec 8 := w.extractLsb' 40 8
/-- `ID`, bits 37:32. -/
def idOf (w : CmdWord) : BitVec 6 := w.extractLsb' 32 6
/-- `ADDR`, bits 31:24. -/
def addrOf (w : CmdWord) : BitVec 8 := w.extractLsb' 24 8
/-- `RING`, bits 28:26. -/
def ringOf (w : CmdWord) : BitVec 3 := w.extractLsb' 26 3
/-- `IDX`, bits 25:24. -/
def idxOf (w : CmdWord) : BitVec 2 := w.extractLsb' 24 2
/-- `LEN`, bits 25:24. -/
def lenOf (w : CmdWord) : BitVec 2 := w.extractLsb' 24 2
/-- `B0`, bits 23:16. -/
def b0Of (w : CmdWord) : BitVec 8 := w.extractLsb' 16 8
/-- `B1`, bits 15:8. -/
def b1Of (w : CmdWord) : BitVec 8 := w.extractLsb' 8 8
/-- `B2`, bits 7:0. -/
def b2Of (w : CmdWord) : BitVec 8 := w.extractLsb' 0 8
/-- `DATA`, bits 15:0. -/
def dataOf (w : CmdWord) : BitVec 16 := w.extractLsb' 0 16
/-- `VAL17`, bits 16:0. -/
def val17Of (w : CmdWord) : BitVec 17 := w.extractLsb' 0 17
/-- `VAL3`, bits 2:0. -/
def val3Of (w : CmdWord) : BitVec 3 := w.extractLsb' 0 3
/-- `VAL1`, bit 0. -/
def val1Of (w : CmdWord) : BitVec 1 := w.extractLsb' 0 1

/-! ## Opcode map (R97) -/

/-- One row of the opcode map: a word `w` is the row's command exactly when `(w AND mask) = match`, and its operands are
the fields of the row's format. -/
structure OpcodeRow where
  op : Mnemonic
  mask : CmdWord
  bits : CmdWord
  build : CmdWord → Instr

/-- Rows of the TMP006 register access and configuration commands. -/
def opcodeRowsTmp006 : List OpcodeRow :=
  [ ⟨.WRREG, 0xFFC000FF0000#48, 0x010000000000#48, fun w => .wrreg (idOf w) (addrOf w) (dataOf w)⟩,
    ⟨.RDREG, 0xFFC000FFFFFF#48, 0x020000000000#48, fun w => .rdreg (idOf w) (addrOf w)⟩,
    ⟨.SWRST, 0xFFC0FFFFFFFF#48, 0x100000000000#48, fun w => .swrst (idOf w)⟩,
    ⟨.GETMODE, 0xFFC0FFFFFFFF#48, 0x110000000000#48, fun w => .getmode (idOf w)⟩,
    ⟨.SETMODE, 0xFFC0FFFFFFF8#48, 0x120000000000#48, fun w => .setmode (idOf w) (val3Of w)⟩,
    ⟨.GETRATE, 0xFFC0FFFFFFFF#48, 0x130000000000#48, fun w => .getrate (idOf w)⟩,
    ⟨.SETRATE, 0xFFC0FFFFFFF8#48, 0x140000000000#48, fun w => .setrate (idOf w) (val3Of w)⟩,
    ⟨.GETDRDYEN, 0xFFC0FFFFFFFF#48, 0x150000000000#48, fun w => .getdrdyen (idOf w)⟩,
    ⟨.SETDRDYEN, 0xFFC0FFFFFFFE#48, 0x160000000000#48, fun w => .setdrdyen (idOf w) (val1Of w)⟩,
    ⟨.GETDRDY, 0xFFC0FFFFFFFF#48, 0x170000000000#48, fun w => .getdrdy (idOf w)⟩,
    ⟨.CLRDRDY, 0xFFC0FFFFFFFF#48, 0x180000000000#48, fun w => .clrdrdy (idOf w)⟩,
    ⟨.GETMFGID, 0xFFC0FFFFFFFF#48, 0x190000000000#48, fun w => .getmfgid (idOf w)⟩,
    ⟨.GETDEVID, 0xFFC0FFFFFFFF#48, 0x1A0000000000#48, fun w => .getdevid (idOf w)⟩ ]

/-- Rows of the decoder and the ring commands. -/
def opcodeRowsRing : List OpcodeRow :=
  [ ⟨.GETAMB, 0xFFC0FFFFFFFF#48, 0x200000000000#48, fun w => .getamb (idOf w)⟩,
    ⟨.GETOBJ, 0xFFC0FFFFFFFF#48, 0x210000000000#48, fun w => .getobj (idOf w)⟩,
    ⟨.GETOBJTC, 0xFFC0E3FFFFFF#48, 0x220000000000#48, fun w => .getobjtc (idOf w) (ringOf w)⟩,
    ⟨.RINGRD, 0xFFFFE0FFFFFF#48, 0x300000000000#48, fun w => .ringrd (ringOf w) (idxOf w)⟩,
    ⟨.RINGWR, 0xFFFFE0FE0000#48, 0x310000000000#48, fun w => .ringwr (ringOf w) (idxOf w) (val17Of w)⟩,
    ⟨.RINGCLR, 0xFFFFE3FFFFFF#48, 0x320000000000#48, fun w => .ringclr (ringOf w)⟩ ]

/-- Rows of the CRC and the SHT31 commands. -/
def opcodeRowsSht31 : List OpcodeRow :=
  [ ⟨.CRC8, 0xFFFFFC000000#48, 0x400000000000#48, fun w => .crc8 (lenOf w) (b0Of w) (b1Of w) (b2Of w)⟩,
    ⟨.CRCCHK, 0xFFFFFF000000#48, 0x410000000000#48, fun w => .crcchk (b0Of w) (b1Of w) (b2Of w)⟩,
    ⟨.SHTINIT, 0xFFFFFFFFFFFF#48, 0x500000000000#48, fun _ => .shtinit⟩,
    ⟨.SHTTEMP, 0xFFFFFFFFFFFF#48, 0x510000000000#48, fun _ => .shttemp⟩,
    ⟨.SHTHUM, 0xFFFFFFFFFFFF#48, 0x520000000000#48, fun _ => .shthum⟩ ]

/-- The 24 rows of rule R97. -/
def opcodeMap : List OpcodeRow := opcodeRowsTmp006 ++ opcodeRowsRing ++ opcodeRowsSht31

/-- `w` is the command of row `r` (R97). -/
def OpcodeRow.holds (r : OpcodeRow) (w : CmdWord) : Bool := w &&& r.mask == r.bits

/-! ## Decoder -/

/-- Why a word is illegal (R99): its two cases, by name. -/
inductive IllegalWord where
  /-- `OPC` is none of the 24 listed values. -/
  | unassignedOpcode
  /-- `OPC` is listed and some reserved bit of its format is 1. -/
  | reservedBitSet
deriving DecidableEq, Repr

/-- What the decoder says of a word. -/
inductive Decoded where
  | command (i : Instr)
  | illegal (why : IllegalWord)
deriving DecidableEq, Repr

/-- Which of R99's two cases an illegal word falls under. -/
def illegalReason (w : CmdWord) : IllegalWord :=
  if opcodeMap.any (fun r => opcOf r.bits == opcOf w) then .reservedBitSet else .unassignedOpcode

/-- The decoder (R97 to R99). It looks at the word only (R98). -/
def decode (w : CmdWord) : Decoded :=
  match opcodeMap.find? (fun r => r.holds w) with
  | some r => .command (r.build w)
  | none => .illegal (illegalReason w)

/-! ## Encoder (R95), in the fields' own positions -/

/-- The value `v` placed with its lowest bit at bit `lo` of the word. -/
def place {n : Nat} (lo : Nat) (v : BitVec n) : CmdWord := v.setWidth 48 <<< lo

/-- The word of a command: `OPC` and the fields of its format, every reserved bit 0. -/
def encode : Instr → CmdWord
  | .wrreg id addr data => place 40 0x01#8 ||| place 32 id ||| place 24 addr ||| place 0 data
  | .rdreg id addr => place 40 0x02#8 ||| place 32 id ||| place 24 addr
  | .swrst id => place 40 0x10#8 ||| place 32 id
  | .getmode id => place 40 0x11#8 ||| place 32 id
  | .setmode id val3 => place 40 0x12#8 ||| place 32 id ||| place 0 val3
  | .getrate id => place 40 0x13#8 ||| place 32 id
  | .setrate id val3 => place 40 0x14#8 ||| place 32 id ||| place 0 val3
  | .getdrdyen id => place 40 0x15#8 ||| place 32 id
  | .setdrdyen id val1 => place 40 0x16#8 ||| place 32 id ||| place 0 val1
  | .getdrdy id => place 40 0x17#8 ||| place 32 id
  | .clrdrdy id => place 40 0x18#8 ||| place 32 id
  | .getmfgid id => place 40 0x19#8 ||| place 32 id
  | .getdevid id => place 40 0x1A#8 ||| place 32 id
  | .getamb id => place 40 0x20#8 ||| place 32 id
  | .getobj id => place 40 0x21#8 ||| place 32 id
  | .getobjtc id ring => place 40 0x22#8 ||| place 32 id ||| place 26 ring
  | .ringrd ring idx => place 40 0x30#8 ||| place 26 ring ||| place 24 idx
  | .ringwr ring idx val17 => place 40 0x31#8 ||| place 26 ring ||| place 24 idx ||| place 0 val17
  | .ringclr ring => place 40 0x32#8 ||| place 26 ring
  | .crc8 len b0 b1 b2 => place 40 0x40#8 ||| place 24 len ||| place 16 b0 ||| place 8 b1 ||| place 0 b2
  | .crcchk b0 b1 b2 => place 40 0x41#8 ||| place 16 b0 ||| place 8 b1 ||| place 0 b2
  | .shtinit => place 40 0x50#8
  | .shttemp => place 40 0x51#8
  | .shthum => place 40 0x52#8

/-! ## The host's question about a table row -/

/-- The command the decoder reads from a word numbered as spec/opcode_table.json numbers it: a command word is one
48-bit piece (R68, R90), bit 0 the least significant. Bits from `nbits` up are 0; a number that needs more than 48 bits
is no command word. -/
def decodeTableWord (nbits w : Nat) : Option Instr :=
  if w % 2 ^ nbits < 2 ^ 48 then
    match decode (BitVec.ofNat 48 (w % 2 ^ nbits)) with
    | .command i => some i
    | .illegal _ => none
  else none

end Sys2Proof
end

