-- ==== Sys2Proof/Machine/Params.lean ====
section
/-! DEFINITION. The parameters of spec/00_scope.md rule R6 that the block uses, by the spec's own names. -/

namespace Sys2Proof.Machine

/-- `TMP_BASE`: the TMP006 slave address is `TMP_BASE + id`. -/
def tmpBase : SlaveAddr := 0x40
/-- `SHT_ADDR`: the SHT31 slave address. -/
def shtAddr : SlaveAddr := 0x44

/-- `REG_VOBJ`: object-voltage register pointer. -/
def regVobj : Byte := 0x00
/-- `REG_TAMB`: ambient (die) temperature register pointer. -/
def regTamb : Byte := 0x01
/-- `REG_CFG`: configuration register pointer. -/
def regCfg : Byte := 0x02
/-- `REG_MFGID`: manufacturer-ID register pointer. -/
def regMfgid : Byte := 0xFE
/-- `REG_DEVID`: device-ID register pointer. -/
def regDevid : Byte := 0xFF

/-! Positions of the configuration fields and their masks (R32, R33). The spec takes the positions from general
knowledge (D5, G1) and decides them; PRESUMED with it (log 10). -/

/-- `RST_POS`. -/
def rstPos : Nat := 15
/-- `MOD_LO`. -/
def modLo : Nat := 12
/-- `CR_LO`. -/
def crLo : Nat := 9
/-- `EN_POS`. -/
def enPos : Nat := 8
/-- `DRDY_POS`. -/
def drdyPos : Nat := 7
/-- `M_RST`. -/
def mRst : Reg16 := 0x8000
/-- `M_MOD`. -/
def mMod : Reg16 := 0x7000
/-- `M_CR`. -/
def mCr : Reg16 := 0x0E00
/-- `M_EN`. -/
def mEn : Reg16 := 0x0100
/-- `M_DRDY`. -/
def mDrdy : Reg16 := 0x0080

/-- `K160_OFFSET`: 0 °C in units of 1/160 K. -/
def k160Offset : Int := 43704
/-- `VOBJ_LSB` in units `VQ_UNIT` of 1.25 nV: 156.25 nV = 125 × 1.25 nV. -/
def vobjLsb : Int := 125
/-- `TC_COEFF` with `TC_SIGN` +: 148 `VQ_UNIT` per 1/1600 K, added. The sign is the spec's decision D10, from general
knowledge; PRESUMED with it (log 11). -/
def tcCoeff : Int := 148

/-- `CRC_POLY`. -/
def crcPoly : Byte := 0x31
/-- `CRC_INIT`. -/
def crcInit : Byte := 0xFF

/-- `SHT_CMD`: single shot, clock stretching, high repeatability. -/
def shtCmd : List Byte := [0x2C, 0x06]
/-- `SHT_FRAME_LEN`. -/
def shtFrameLen : Nat := 6
/-- `SHT_T_SPAN`. -/
def shtTSpan : Int := 175
/-- `SHT_H_SPAN`. -/
def shtHSpan : Int := 100
/-- `SHT_T_OFFSET` times `SHT_DIV`, negated: 45 × 65535 (R188). -/
def shtTOffset : Int := 2949075

end Sys2Proof.Machine
end

