-- ==== Sys2Proof/Machine/Flags.lean ====
section
/-! DEFINITION. The SRM has no flags or condition codes (spec/10_state.md rule R27). What a command leaves in their
place is its status code; this file holds the codes (spec/60_exceptions.md rule R215). -/

namespace Sys2Proof.Machine

/-- A status code, s8 (R22). -/
abbrev Code := BitVec 8

/-- 0: the command ran to its end. -/
def codeOk : Code := 0
/-- `E_OPEN`, −1. That −1 is the open failure and −2 the select failure is the spec's decision D11 (log 11). -/
def eOpen : Code := -1
/-- `E_SELECT`, −2. -/
def eSelect : Code := -2
/-- `E_WRITE`, −3. -/
def eWrite : Code := -3
/-- `E_READ`, −4. -/
def eRead : Code := -4
/-- `E_CRC`, −5. -/
def eCrc : Code := -5
/-- `E_ILLEGAL`, −128. -/
def eIllegal : Code := -128

end Sys2Proof.Machine
end

