-- ==== Sys2Proof/Config.lean ====
section
/-! DEFINITION. The open values of the SRM: constants without a body, so that no proof can know a value of theirs.
The parameters of spec/00_scope.md rule R6 that have a value stand in Machine/Params.lean. -/

namespace Sys2Proof

/-! After the `rst` input the registers CUR, T0, T1 and FR are unspecified (spec/10_state.md rule R38,
spec/93_implementation_defined.md U14: any value). The argument is the State field `draws`, which every reset
advances, so that two resets need not leave the same values (log 6). -/

/-- What CUR holds after the `n`-th reset. -/
opaque Config.unspecifiedCur : Nat → CmdWord
/-- What T0 holds after the `n`-th reset. -/
opaque Config.unspecifiedT0 : Nat → Reg16
/-- What T1 holds after the `n`-th reset. -/
opaque Config.unspecifiedT1 : Nat → Reg16
/-- What FR[k] holds after the `n`-th reset: `Config.unspecifiedFr n k`. -/
opaque Config.unspecifiedFr : Nat → Nat → Byte

/-- `CalculateTemperature` (spec/46_physics.md rule R200), a function of the CONSUMER, outside the block: a total
function of the two results a GETOBJ or GETOBJTC leaves in RES0 (die temperature, 1/160 K) and RES1 (object voltage,
1.25 nV), answering a binary32 pattern (R206). Its constants are not in the source (R201): nothing is assumed of it
except that it depends on those two arguments alone (log 16). -/
opaque Config.calculateTemperature : BitVec 32 → BitVec 32 → BitVec 32

end Sys2Proof
end

