-- ==== Sys2Proof/Machine/State.lean ====
section
/-! DEFINITION. The state of the SRM as plain data: the eleven pieces of state of spec/10_state.md rule R20, the ports
of spec/30_encoding.md rule R90, and two fields of the model's own (INVENTORY.md says which is which). -/

namespace Sys2Proof.Machine

/-- One sample ring (R24): entry `h0` is the oldest, `h3` the newest; an entry of 0 means "no sample yet". -/
structure SampleRing where
  h0 : Sample
  h1 : Sample
  h2 : Sample
  h3 : Sample
deriving DecidableEq, Repr

/-- The four entries of a ring after reset and after RINGCLR (R38, R167). -/
def SampleRing.zero : SampleRing := ⟨0, 0, 0, 0⟩

/-- Six bytes in the order received: the SHT31 frame `FR[0..5]` (R37), and the byte lanes of a transport answer. -/
structure Frame where
  b0 : Byte
  b1 : Byte
  b2 : Byte
  b3 : Byte
  b4 : Byte
  b5 : Byte
deriving DecidableEq, Repr

/-- The six kinds of transport request, with their arguments (R56, R57, R58, R60). -/
inductive Request where
  /-- `Write(sa, bytes, len)` (R57). -/
  | write (sa : SlaveAddr) (bytes : List Byte) (len : Nat)
  /-- `ComboRead(sa, wbytes, wlen, rlen)` (R58). -/
  | comboRead (sa : SlaveAddr) (wbytes : List Byte) (wlen rlen : Nat)
  /-- `DevOpen()` (R60). -/
  | devOpen
  /-- `DevSelect(sa)` (R60). -/
  | devSelect (sa : SlaveAddr)
  /-- `DevWrite(bytes, n)` (R60). -/
  | devWrite (bytes : List Byte) (n : Nat)
  /-- `DevRead(n)` (R60). -/
  | devRead (n : Nat)
deriving DecidableEq, Repr

/-- One answer of the transport (R90: "bytes, count, ok/fail"). A request uses the parts its kind returns and no
other: nothing of it for `Write` (R57), `bytes.b0`, `bytes.b1` for `ComboRead` (R58, R65), `ok` for `DevOpen` and
`DevSelect`, `cnt` for `DevWrite`, `cnt` and `bytes` for `DevRead` (R60). No part is constrained (R62, log 4). -/
structure Answer where
  ok : Bool
  cnt : BitVec 8
  bytes : Frame
deriving DecidableEq, Repr

/-- The whole state. -/
structure State where
  /-- STATUS, s8 (R22). -/
  status : BitVec 8
  /-- RES0, u32 (R23). -/
  res0 : BitVec 32
  /-- RES1, u32 (R23). -/
  res1 : BitVec 32
  /-- SESS_ERR, s8 (R28). -/
  sessErr : BitVec 8
  /-- RING[0..7] (R24). -/
  rings : Vector SampleRing 8
  /-- BUSY, 1 bit (R29). -/
  busy : Bool
  /-- CUR, u48, the command word being executed (R29). -/
  cur : CmdWord
  /-- USEQ, u3, the micro-sequence counter (R26). -/
  useq : BitVec 3
  /-- T0, u16 (R29). -/
  t0 : Reg16
  /-- T1, u16 (R29); no command reads or writes it (R30). -/
  t1 : Reg16
  /-- FR[0..5], u8 each (R29). -/
  fr : Frame
  /-- Input `rst` (R90, R250). -/
  rst : Bool
  /-- Inputs `cmd_valid` and `cmd`: the host's command words in the order it presents them; the first is on the
  command port, and the list is empty when `cmd_valid = 0` (R90, R91, R265; log 3). -/
  cmds : List CmdWord
  /-- The transport's answers in the order it gives them: the first answers the request that stands next (R62; log 3). -/
  answers : List Answer
  /-- Output `rsp_valid`: the last step delivered a response (R92; log 9). -/
  rspValid : Bool
  /-- Output: the request that stands unanswered on the transport port (R61, R90; log 8). -/
  port : Option Request
  /-- The model's own: every transport request issued so far, oldest first (log 8). -/
  requests : List Request
  /-- The model's own: how many free values have been drawn (log 6). -/
  draws : Nat
deriving DecidableEq, Repr

/-- Why the machine stops with a fault: never. "There is no case in which the block itself faults or behaves in an
undefined way" (spec/60_exceptions.md rule R232), so the type has no constructor; an error is a status code in a next
state (R222), and an unanswered request is a state that waits (R63, log 2). -/
inductive Fault where
deriving DecidableEq, Repr

/-- Why the machine refuses a command. -/
inductive Refusal where
  /-- Raised by an arm of `exec` for a command that has no meaning yet (safe: the run stops). No arm does. -/
  | notModelled (mnemonic : String)
deriving DecidableEq, Repr

/-- What executing a command, and a step, answers. -/
abbrev Result := Host.Outcome State Fault Refusal

/-- The machine right after reset (R38). `SESS_ERR = −1`; everything else the rule names is 0. CUR, T0, T1 and FR are
unspecified there: 0 is the model's choice (DESIGN CHOICE, log 5). The ports and the model's own fields are empty
(DESIGN CHOICE, logs 3, 6, 8, 9). -/
def State.reset : State where
  status := 0
  res0 := 0
  res1 := 0
  sessErr := -1
  rings := Vector.replicate 8 SampleRing.zero
  busy := false
  cur := 0
  useq := 0
  t0 := 0
  t1 := 0
  fr := ⟨0, 0, 0, 0, 0, 0⟩
  rst := false
  cmds := []
  answers := []
  rspValid := false
  port := none
  requests := []
  draws := 0

end Sys2Proof.Machine
end

