-- ==== Sys2Proof/Machine/Operands.lean ====
section
/-! DEFINITION. Operand forms: slave addresses, wire byte order, configuration fields, ring entries.
Format C's byte list is taken by `crc` itself, which reads the first `LEN` bytes (Crc.lean). -/

namespace Sys2Proof.Machine

/-! ## Addresses and requests -/

/-- `sa = 0x40 + int(ID)` (R50): a value from 0x40 to 0x7F, which fits 7 bits. -/
def slaveOf (id : BitVec 6) : SlaveAddr := tmpBase + id.setWidth 7

/-- The u16 `(b0, b1)`, first byte received in bits 15:8 (R66). -/
def be16 (hi lo : Byte) : Reg16 := hi ++ lo

/-- Bits 15:8 of a register value. -/
def hiByte (v : Reg16) : Byte := v.extractLsb' 8 8

/-- Bits 7:0 of a register value. -/
def loByte (v : Reg16) : Byte := v.extractLsb' 0 8

/-- The value of a `RdReg` answered with these bytes (R65, R66). -/
def Answer.reg (a : Answer) : Reg16 := be16 a.bytes.b0 a.bytes.b1

/-- `WrReg(sa, ptr, v)`: pointer first, then the most significant byte, then the least significant byte (R64). -/
def wrReg (sa : SlaveAddr) (ptr : Byte) (v : Reg16) : Request := .write sa [ptr, hiByte v, loByte v] 3

/-- `RdReg(sa, ptr)` (R65). -/
def rdReg (sa : SlaveAddr) (ptr : Byte) : Request := .comboRead sa [ptr] 1 2

/-! ## Configuration fields (R130, R131) -/

/-- The word `SetField(M, lo, val)` writes when the read returned `t0` (R130). -/
def mergeField {n : Nat} (m : Reg16) (lo : Nat) (val : BitVec n) (t0 : Reg16) : Reg16 :=
  (t0 &&& ~~~m) ||| ((val.setWidth 16 <<< lo) &&& m)

/-- The field value `GetField(M, lo)` returns from the word `v`, right-justified (R131). -/
def fieldOf (m : Reg16) (lo : Nat) (v : Reg16) : Reg16 := (v &&& m) >>> lo

/-! ## Ring entries (R24) -/

/-- Entry `i` of a ring. -/
def SampleRing.get (h : SampleRing) (i : BitVec 2) : Sample :=
  if i = 0 then h.h0 else if i = 1 then h.h1 else if i = 2 then h.h2 else h.h3

/-- The ring with entry `i` replaced. -/
def SampleRing.set (h : SampleRing) (i : BitVec 2) (v : Sample) : SampleRing :=
  if i = 0 then { h with h0 := v } else if i = 1 then { h with h1 := v }
  else if i = 2 then { h with h2 := v } else { h with h3 := v }

end Sys2Proof.Machine
end

