-- ==== Sys2Proof/Machine/Ops.lean ====
section
/-! DEFINITION. The shared operations: accepting a command, one transport request, the two ends of a command
(`respond` and `raise`), the ring accesses, and reset. -/

namespace Sys2Proof.Machine

/-! ## Output ports that are functions of the state -/

/-- `cmd_ready`: 1 exactly when `BUSY = 0` (R91). -/
def State.cmdReady (s : State) : Bool := !s.busy
/-- `cmd_valid` (R90). -/
def State.cmdValid (s : State) : Bool := !s.cmds.isEmpty
/-- `rsp_status` shows STATUS (R92). -/
def State.rspStatus (s : State) : Code := s.status
/-- `rsp_res0` shows RES0 (R92). -/
def State.rspRes0 (s : State) : BitVec 32 := s.res0
/-- `rsp_res1` shows RES1 (R92). -/
def State.rspRes1 (s : State) : BitVec 32 := s.res1

/-! ## The command port and the ends of a command -/

/-- Acceptance of the word `w`, after which the host presents `rest` (R91): `CUR <- cmd`, `BUSY <- 1`, `USEQ <- 0`. No
request of the new command stands on the transport port yet. -/
def accept (w : CmdWord) (rest : List CmdWord) (s : State) : State :=
  { s with cur := w, busy := true, useq := 0, port := none, cmds := rest }

/-- `rsp_valid` is 1 for the moment of delivery only (R92): the next step begins by dropping it. -/
def dropRspValid (s : State) : State := { s with rspValid := false }

/-- Delivery of a response (R92). -/
def deliver (code : Code) (r0 r1 : BitVec 32) (s : State) : State :=
  { s with status := code, res0 := r0, res1 := r1, rspValid := true, busy := false, useq := 0 }

/-- `respond(r0, r1)`: normal end of a command (R8). -/
def respond (r0 r1 : BitVec 32) (s : State) : State := deliver codeOk r0 r1 s

/-- `raise E(code)`: taking an error, the whole of it (R222). No request of the command is issued after it, both
results are 0, nothing is saved and nothing else changes; what the command wrote before stays written. There is no
return operation: the block accepts the next command as after a success (R223). -/
def raiseE (code : Code) (s : State) : State := deliver code 0 0 s

/-! ## The transport port -/

/-- The request `r` goes onto the transport port, unless it stands there already (the command was waiting for its
answer). -/
def issue (r : Request) (s : State) : State :=
  if s.port = none then { s with port := some r, requests := s.requests ++ [r] } else s

/-- The answer of the standing request has arrived: the port is free and `USEQ` increases by 1 (R26). -/
def takeAnswer (rest : List Answer) (s : State) : State :=
  { s with answers := rest, port := none, useq := s.useq + 1 }

/-- One transport request of a micro-sequence (R61): issue it, wait for its answer, and go on with the answer. While
the transport has not answered, the command makes no progress (R63): the state stays as it is, BUSY and the request
standing. -/
def transact (r : Request) (next : Answer → State → State) (s : State) : State :=
  match s.answers with
  | [] => issue r s
  | a :: rest => next a (takeAnswer rest (issue r s))

/-- What the first answer of a two-request command leads to: on to the second request, or the end. -/
inductive AfterFirst where
  | goOn (s : State)
  | stop (s : State)

/-- A micro-sequence of two transport requests (R26, R61). At `USEQ` 0 the first request is issued; its answer leads
through `mid` to the second request, which may depend on what `mid` wrote, or to the end. A command that was waiting for
its second answer (`USEQ` not 0) goes on from there. -/
def twoRequests (first : Request) (mid : Answer → State → AfterFirst) (second : State → Request)
    (finish : Answer → State → State) (s : State) : State :=
  if s.useq = 0 then
    transact first (fun a s => match mid a s with
      | .goOn s => transact (second s) finish s
      | .stop s => s) s
  else transact (second s) finish s

/-! ## Rings (R24, R25) -/

/-- `RING[r]`. -/
def State.ring (s : State) (r : BitVec 3) : SampleRing := s.rings[r.toNat]

/-- `RING[r] <- h`; no other ring changes. -/
def State.setRing (r : BitVec 3) (h : SampleRing) (s : State) : State := { s with rings := s.rings.set r.toNat h }

/-- Shift and append, all at once (R161): the oldest entry is discarded and `k` is the newest. -/
def SampleRing.append (h : SampleRing) (k : Sample) : SampleRing := ⟨h.h1, h.h2, h.h3, k⟩

/-! ## Reset (R38, R40, R250, R251) -/

/-- What the block holds once `rst` is released: the values of R38; CUR, T0, T1 and FR any value (log 6). A command in
progress is abandoned without a response and its request leaves the port (R40); nothing is sent (R251). The inputs are
not the block's to change, and the requests made so far stay made (log 7). -/
def applyReset (s : State) : State :=
  { s with
    status := 0, res0 := 0, res1 := 0, sessErr := eOpen, rings := Vector.replicate 8 SampleRing.zero
    busy := false, useq := 0, rspValid := false, port := none
    cur := Config.unspecifiedCur s.draws
    t0 := Config.unspecifiedT0 s.draws
    t1 := Config.unspecifiedT1 s.draws
    fr := ⟨Config.unspecifiedFr s.draws 0, Config.unspecifiedFr s.draws 1, Config.unspecifiedFr s.draws 2,
      Config.unspecifiedFr s.draws 3, Config.unspecifiedFr s.draws 4, Config.unspecifiedFr s.draws 5⟩
    draws := s.draws + 1 }

end Sys2Proof.Machine
end

