-- ==== Sys2Proof/Machine/Regmap.lean ====
section
/-! DEFINITION. Register access (spec/40_regmap.md): WRREG and RDREG, and the one-read micro-sequence that RDREG, the
identification reads, the getters and GETAMB share. `USEQ` says where in its micro-sequence a command stands. -/

namespace Sys2Proof.Machine

/-- A command that reads one register and responds with a function of its value, `RES1 = 0` (R121, R131, R141, R142,
R155). -/
def readAndRespond (id : BitVec 6) (ptr : Byte) (result : Reg16 → BitVec 32) (s : State) : State :=
  transact (rdReg (slaveOf id) ptr) (fun a s => respond (result a.reg) 0 s) s

/-- WRREG (R120): one `Write`, whose answer carries nothing; STATUS is always 0 (R59). -/
def execWrreg (id : BitVec 6) (addr : Byte) (data : Reg16) (s : State) : Result :=
  .next (transact (wrReg (slaveOf id) addr data) (fun _ s => respond 0 0 s) s)

/-- RDREG (R121). -/
def execRdreg (id : BitVec 6) (addr : Byte) (s : State) : Result :=
  .next (readAndRespond id addr (fun v => v.setWidth 32) s)

end Sys2Proof.Machine
end

