-- ==== Sys2Proof/Machine/FixedPoint.lean ====
section
/-! DEFINITION. The fixed-point decoder (spec/42_decode.md) and GETAMB, GETOBJ. All arithmetic is exact on integers and
narrowed once at the end; no value is rounded. -/

namespace Sys2Proof.Machine

/-- The die-temperature code of the register value `raw`: `sra(raw, 2)` as a signed 14-bit value (R150). -/
def dieCode (raw : Reg16) : BitVec 14 := (raw.sshiftRight 2).setWidth 14

/-- `T32(raw)`: die temperature, unit 1/32 °C (R151). -/
def t32 (raw : Reg16) : BitVec 32 := (dieCode raw).signExtend 32

/-- `K160(raw)` as an integer (R152). -/
def k160Int (raw : Reg16) : Int := 5 * (dieCode raw).toInt + k160Offset

/-- `K160(raw)`: die temperature, u17, unit 1/160 K (R152, R153). -/
def k160 (raw : Reg16) : Sample := BitVec.ofInt 17 (k160Int raw)

/-- `VQ(rawv)` as an integer (R154). -/
def vqInt (rawv : Reg16) : Int := vobjLsb * rawv.toInt

/-- `VQ(rawv)`: object voltage, s32, unit 1.25 nV (R154). -/
def vq (rawv : Reg16) : BitVec 32 := BitVec.ofInt 32 (vqInt rawv)

/-- GETAMB (R155). -/
def execGetamb (id : BitVec 6) (s : State) : Result := .next (readAndRespond id regTamb t32 s)

/-- GETOBJ (R156): die temperature first, into T0, object voltage second; the physics model is the consumer's (D24). -/
def execGetobj (id : BitVec 6) (s : State) : Result :=
  .next <| twoRequests (rdReg (slaveOf id) regTamb)
    (fun a s => .goOn { s with t0 := a.reg })
    (fun _ => rdReg (slaveOf id) regVobj)
    (fun a s => respond ((k160 s.t0).setWidth 32) (vq a.reg) s) s

end Sys2Proof.Machine
end

