-- ==== Sys2Proof/Machine/RingCommands.lean ====
section
/-! DEFINITION. The transient-correction ring (spec/43_ring.md): slope, correction, GETOBJTC, RINGRD, RINGWR,
RINGCLR. -/

namespace Sys2Proof.Machine

/-- The slope numerator `N` of a ring, unit 1/1600 K per sample (R162): the test is on the oldest entry alone. -/
def SampleRing.slope (h : SampleRing) : Int :=
  if h.h0 = 0 then 0
  else -3 * (h.h0.toNat : Int) - 1 * (h.h1.toNat : Int) + 1 * (h.h2.toNat : Int) + 3 * (h.h3.toNat : Int)

/-- The corrected object voltage `VQC`, an exact integer, unit 1.25 nV (R163). -/
def correctedVoltage (h : SampleRing) (rawv : Reg16) : Int := vqInt rawv + tcCoeff * h.slope

/-- GETOBJTC (R164): the ring shifts when the die temperature arrives, before the voltage is asked for; the response is
taken from the ring as it then stands. -/
def execGetobjtc (id : BitVec 6) (ring : BitVec 3) (s : State) : Result :=
  .next <| twoRequests (rdReg (slaveOf id) regTamb)
    (fun a s => .goOn (State.setRing ring ((s.ring ring).append (k160 a.reg)) { s with t0 := a.reg }))
    (fun _ => rdReg (slaveOf id) regVobj)
    (fun a s => respond ((s.ring ring).h3.setWidth 32) (.ofInt 32 (correctedVoltage (s.ring ring) a.reg)) s) s

/-- RINGRD (R165). -/
def execRingrd (ring : BitVec 3) (idx : BitVec 2) (s : State) : Result :=
  .next (respond (((s.ring ring).get idx).setWidth 32) 0 s)

/-- RINGWR (R166): any u17 value is stored. -/
def execRingwr (ring : BitVec 3) (idx : BitVec 2) (val : Sample) (s : State) : Result :=
  .next (respond 0 0 (State.setRing ring ((s.ring ring).set idx val) s))

/-- RINGCLR (R167). -/
def execRingclr (ring : BitVec 3) (s : State) : Result :=
  .next (respond 0 0 (State.setRing ring SampleRing.zero s))

end Sys2Proof.Machine
end

