-- ==== Sys2Proof/Machine/Crc.lean ====
section
/-! DEFINITION. The CRC-8 unit (spec/44_crc.md): the generic function, the block's parameters, CRC8, CRCCHK. -/

namespace Sys2Proof.Machine

/-- One shift of the remainder: bit 7 goes out, bit 0 becomes 0, and `poly` is XORed in when the bit that went out was
1 (R175). -/
def crcShift (poly rem : Byte) : Byte := if rem.msb then (rem <<< 1) ^^^ poly else rem <<< 1

/-- `n` shifts (R175: "repeat 8 times"). -/
def crcShifts (poly : Byte) : Nat → Byte → Byte
  | 0, rem => rem
  | n + 1, rem => crcShifts poly n (crcShift poly rem)

/-- One byte: XOR into the remainder, then eight shifts (R175). -/
def crcByte (poly rem b : Byte) : Byte := crcShifts poly 8 (rem ^^^ b)

/-- `crc8(bytes, len, poly, init)` (R175): the first `len` bytes in list order; no reflection, no final XOR. -/
def crc8 (bytes : List Byte) (len : Nat) (poly init : Byte) : Byte := (bytes.take len).foldl (crcByte poly) init

/-- `CRC(bytes, len)`: the block's only parameters, 0x31 and 0xFF (R176). -/
def crc (bytes : List Byte) (len : Nat) : Byte := crc8 bytes len crcPoly crcInit

/-- CRC8 (R177): the bytes beyond the first `LEN` do not affect the result. -/
def execCrc8 (len : BitVec 2) (b0 b1 b2 : Byte) (s : State) : Result :=
  .next (respond ((crc [b0, b1, b2] len.toNat).setWidth 32) 0 s)

/-- CRCCHK (R178): all 8 bits are compared. -/
def execCrcchk (b0 b1 sent : Byte) (s : State) : Result :=
  .next <| if crc [b0, b1] 2 ≠ sent then raiseE eCrc s
    else respond ((crc [b0, b1] 2).setWidth 32) 0 s

end Sys2Proof.Machine
end

