-- ==== Sys2Proof/Machine/Sht31.lean ====
section
/-! DEFINITION. The SHT31 sequencer (spec/45_sht31.md): session, the shared measurement micro-sequence, decode,
SHTINIT, SHTTEMP, SHTHUM. The tests stand in the order of spec/60_exceptions.md rule R219. -/

namespace Sys2Proof.Machine

/-- SHTINIT (R186): open the device, set the slave address; SESS_ERR is written in every outcome. -/
def execShtinit (s : State) : Result :=
  .next <| twoRequests .devOpen
    (fun a s => if a.ok then .goOn s else .stop (raiseE eOpen { s with sessErr := eOpen }))
    (fun _ => .devSelect shtAddr)
    (fun b s => if b.ok then respond 0 0 { s with sessErr := codeOk }
      else raiseE eSelect { s with sessErr := eSelect }) s

/-- The answer of the frame read (R187): the bytes go to FR; every count but 6 fails alike, and the frame goes to
`finish` otherwise. -/
def frameRead (finish : Frame → State → State) (a : Answer) (s : State) : State :=
  if a.cnt ≠ 6 then raiseE eRead { s with fr := a.bytes } else finish a.bytes { s with fr := a.bytes }

/-- `Measure()` (R187): the session test comes before the command's first request and asks nothing of the transport;
then the command is written, every count but 2 failing alike, and the frame is read. -/
def measure (finish : Frame → State → State) (s : State) : State :=
  if s.useq = 0 ∧ s.sessErr ≠ 0 then raiseE s.sessErr s
  else twoRequests (.devWrite shtCmd 2)
    (fun a s => if a.cnt ≠ 2 then .stop (raiseE eWrite s) else .goOn s)
    (fun _ => .devRead shtFrameLen)
    (frameRead finish) s

/-- SHTTEMP's numerator over 65535 °C (R188): `175 × raw − 2949075`, exact and within s32 (R190). -/
def tempNumerator (raw : Reg16) : Int := shtTSpan * (raw.toNat : Int) - shtTOffset

/-- SHTHUM's numerator over 65535 %RH (R189): `100 × raw` (R190). -/
def humNumerator (raw : Reg16) : Int := shtHSpan * (raw.toNat : Int)

/-- The end of SHTTEMP: the temperature pair alone is validated and decoded (R188). -/
def decodeTemp (f : Frame) (s : State) : State :=
  if crc [f.b0, f.b1] 2 ≠ f.b2 then raiseE eCrc s
  else respond (.ofInt 32 (tempNumerator (be16 f.b0 f.b1))) 0 s

/-- The end of SHTHUM: the humidity pair alone is validated and decoded (R189). -/
def decodeHum (f : Frame) (s : State) : State :=
  if crc [f.b3, f.b4] 2 ≠ f.b5 then raiseE eCrc s
  else respond (.ofInt 32 (humNumerator (be16 f.b3 f.b4))) 0 s

/-- SHTTEMP (R188). -/
def execShttemp (s : State) : Result := .next (measure decodeTemp s)

/-- SHTHUM (R189). -/
def execShthum (s : State) : Result := .next (measure decodeHum s)

end Sys2Proof.Machine
end

