-- ==== Sys2Proof/Machine/Consumer.lean ====
section
/-! DEFINITION. What the consumer of the block reads from the results, as exact rationals (spec/42_decode.md rule R157,
spec/43_ring.md rules R162 and R163, spec/45_sht31.md rules R188 to R190). Outside the block: no command calls any of
it; it says which quantity a result is. -/

namespace Sys2Proof.Machine

/-- Celsius from a GETAMB result: `int(T32) / 32` (R157). -/
def celsiusOfT32 (r0 : BitVec 32) : ℚ := r0.toInt / 32
/-- Kelvin from a K160 value: `K160 / 160` (R157). -/
def kelvinOfK160 (r0 : BitVec 32) : ℚ := r0.toNat / 160
/-- Volts from a VQ value: `int(VQ) × 1.25e-9` (R157). -/
def voltsOfVq (r1 : BitVec 32) : ℚ := r1.toInt * (125 / 100 / 1000000000)
/-- The slope in Kelvin per sample: `N / 1600` (R162). -/
def slopeKelvin (n : Int) : ℚ := n / 1600
/-- °C from an SHTTEMP result: `int(RES0) / 65535` (R188). -/
def celsiusOfSht (r0 : BitVec 32) : ℚ := r0.toInt / 65535
/-- %RH from an SHTHUM result: `RES0 / 65535` (R189). -/
def humidityOfSht (r0 : BitVec 32) : ℚ := r0.toNat / 65535

/-- The object temperature of the document's `GetObjectTemperature` functions: the consumer applies its physics model
to the two results (R156, R164, R200). -/
def consumerObjectTemperature (s : State) : BitVec 32 := Config.calculateTemperature s.rspRes0 s.rspRes1

end Sys2Proof.Machine
end

