-- ==== Sys2Proof/Machine/ConfigFields.lean ====
section
/-! DEFINITION. Configuration-field and identification commands (spec/41_config.md). -/

namespace Sys2Proof.Machine

/-- `SetField(M, lo, val)` (R130): read the configuration register into T0, then write it back with the one field
replaced. The two requests are not atomic (R71). -/
def setField {n : Nat} (id : BitVec 6) (m : Reg16) (lo : Nat) (val : BitVec n) (s : State) : State :=
  twoRequests (rdReg (slaveOf id) regCfg)
    (fun a s => .goOn { s with t0 := a.reg })
    (fun s => wrReg (slaveOf id) regCfg (mergeField m lo val s.t0))
    (fun _ s => respond 0 0 s) s

/-- `GetField(M, lo)` (R131). -/
def getField (id : BitVec 6) (m : Reg16) (lo : Nat) (s : State) : State :=
  readAndRespond id regCfg (fun v => (fieldOf m lo v).setWidth 32) s

/-- SWRST (R132): the reset bit of the sensor, not of the block (R250). -/
def execSwrst (id : BitVec 6) (s : State) : Result := .next (setField id mRst rstPos 1#1 s)

/-- GETMODE (R133). -/
def execGetmode (id : BitVec 6) (s : State) : Result := .next (getField id mMod modLo s)

/-- SETMODE (R134). -/
def execSetmode (id : BitVec 6) (mode : BitVec 3) (s : State) : Result := .next (setField id mMod modLo mode s)

/-- GETRATE (R135). -/
def execGetrate (id : BitVec 6) (s : State) : Result := .next (getField id mCr crLo s)

/-- SETRATE (R136). -/
def execSetrate (id : BitVec 6) (rate : BitVec 3) (s : State) : Result := .next (setField id mCr crLo rate s)

/-- GETDRDYEN (R137). -/
def execGetdrdyen (id : BitVec 6) (s : State) : Result := .next (getField id mEn enPos s)

/-- SETDRDYEN (R138). -/
def execSetdrdyen (id : BitVec 6) (en : BitVec 1) (s : State) : Result := .next (setField id mEn enPos en s)

/-- GETDRDY (R139). -/
def execGetdrdy (id : BitVec 6) (s : State) : Result := .next (getField id mDrdy drdyPos s)

/-- CLRDRDY (R140). -/
def execClrdrdy (id : BitVec 6) (s : State) : Result := .next (setField id mDrdy drdyPos 0#1 s)

/-- GETMFGID (R141): the value is compared with nothing. -/
def execGetmfgid (id : BitVec 6) (s : State) : Result :=
  .next (readAndRespond id regMfgid (fun v => v.setWidth 32) s)

/-- GETDEVID (R142): the value is compared with nothing. -/
def execGetdevid (id : BitVec 6) (s : State) : Result :=
  .next (readAndRespond id regDevid (fun v => v.setWidth 32) s)

end Sys2Proof.Machine
end

