-- ==== Sys2Proof/Machine/Dispatch.lean ====
section
/-! DEFINITION. The meaning of every command: one arm per constructor of Instr. -/

namespace Sys2Proof.Machine

/-- What command `i` does, from the micro-step `USEQ` says it stands at. -/
def exec (i : Instr) (s : State) : Host.Outcome State Fault Refusal :=
  match i with
  | .wrreg id addr data => Sys2Proof.Machine.execWrreg id addr data s
  | .rdreg id addr => Sys2Proof.Machine.execRdreg id addr s
  | .swrst id => Sys2Proof.Machine.execSwrst id s
  | .getmode id => Sys2Proof.Machine.execGetmode id s
  | .setmode id mode => Sys2Proof.Machine.execSetmode id mode s
  | .getrate id => Sys2Proof.Machine.execGetrate id s
  | .setrate id rate => Sys2Proof.Machine.execSetrate id rate s
  | .getdrdyen id => Sys2Proof.Machine.execGetdrdyen id s
  | .setdrdyen id en => Sys2Proof.Machine.execSetdrdyen id en s
  | .getdrdy id => Sys2Proof.Machine.execGetdrdy id s
  | .clrdrdy id => Sys2Proof.Machine.execClrdrdy id s
  | .getmfgid id => Sys2Proof.Machine.execGetmfgid id s
  | .getdevid id => Sys2Proof.Machine.execGetdevid id s
  | .getamb id => Sys2Proof.Machine.execGetamb id s
  | .getobj id => Sys2Proof.Machine.execGetobj id s
  | .getobjtc id ring => Sys2Proof.Machine.execGetobjtc id ring s
  | .ringrd ring idx => Sys2Proof.Machine.execRingrd ring idx s
  | .ringwr ring idx val => Sys2Proof.Machine.execRingwr ring idx val s
  | .ringclr ring => Sys2Proof.Machine.execRingclr ring s
  | .crc8 len b0 b1 b2 => Sys2Proof.Machine.execCrc8 len b0 b1 b2 s
  | .crcchk b0 b1 crc => Sys2Proof.Machine.execCrcchk b0 b1 crc s
  | .shtinit => Sys2Proof.Machine.execShtinit s
  | .shttemp => Sys2Proof.Machine.execShttemp s
  | .shthum => Sys2Proof.Machine.execShthum s

end Sys2Proof.Machine
end

