-- ==== Sys2Proof/Machine/Step.lean ====
section
/-! DEFINITION. One step of the block. There is no program counter and no instruction memory (spec/10_state.md rule
R26, spec/20_memory.md rule R79): the next command is the word on the command port. -/

namespace Sys2Proof.Machine

/-- Run the command whose word is in CUR; a word that is no command ends at once with `E_ILLEGAL` (R99). -/
def runCur (s : State) : Result :=
  match decode s.cur with
  | .command i => exec i s
  | .illegal _ => .next (raiseE eIllegal s)

/-- One step. `rst` wins over everything (R220). A busy block goes on with the command in CUR and ignores the command
port (R91). An idle block accepts the word on the port and runs it; with no word presented it stays idle. A step takes
a command as far as the answers that have arrived carry it (log 1). -/
def step (s : State) : Host.Outcome State Fault Refusal :=
  if s.rst then .next (applyReset s)
  else if s.busy then runCur (dropRspValid s)
  else match s.cmds with
    | [] => .next (dropRspValid s)
    | w :: rest => runCur (accept w rest (dropRspValid s))

/-- `s` with the command word `w` on the command port of an idle block that is not being reset, so that the next step
accepts and runs it. Bits of `w` from `nbits` up are 0. -/
def State.withFetchWord (s : State) (nbits w : Nat) : State :=
  { s with rst := false, busy := false, useq := 0, port := none
           cmds := BitVec.ofNat 48 (w % 2 ^ nbits) :: s.cmds.tail }

end Sys2Proof.Machine
end

