-- ==== Sys2Proof/Safety.lean ====
section
/-! DEFINITION. The terms claims use: what the outside may change, which states are reachable, the schedule of
transport requests of each command, and the invariant of the block. -/

namespace Sys2Proof.Machine

/-! ## The outside -/

/-- Between two steps the host and the transport may set the inputs to anything, and nothing else
(spec/00_scope.md rule R5, spec/20_memory.md rule R62). -/
def InputChange (s s' : State) : Prop :=
  s' = { s with rst := s'.rst, cmds := s'.cmds, answers := s'.answers }

/-- The states the block can be in, whatever the outside does. -/
inductive Reachable : State → Prop where
  | reset : Reachable State.reset
  | step {s t : State} : Reachable s → step s = .next t → Reachable t
  | input {s t : State} : Reachable s → InputChange s t → Reachable t

/-! ## Where a command stands -/

/-- The block has just accepted a command and has asked the transport for nothing yet. -/
def State.Starting (s : State) : Prop := s.busy = true ∧ s.useq = 0 ∧ s.port = none

/-- The requests issued so far once `r` stands on the port: `r` is new unless the command was already waiting. -/
def State.requestsWith (s : State) (r : Request) : List Request :=
  if s.port = none then s.requests ++ [r] else s.requests

/-- The state `s` becomes when its command ends with this response, the answers `rest` still unused and the requests
`reqs` issued in all: only the response registers, the sequencer and the two port records differ. -/
def ended (s : State) (code : Code) (r0 r1 : BitVec 32) (rest : List Answer) (reqs : List Request) : State :=
  { s with status := code, res0 := r0, res1 := r1, rspValid := true, busy := false, useq := 0, port := none
           answers := rest, requests := reqs }

/-- The state `s` becomes when its command has used up the answers and stands at `USEQ = u` with `r` on the port, the
requests `reqs` issued in all. -/
def waitingOn (s : State) (u : BitVec 3) (r : Request) (reqs : List Request) : State :=
  { s with useq := u, port := some r, answers := [], requests := reqs }

/-! ## The schedule of requests (20_memory.md rules R54, R70, R75; the `USEQ` lines of each command's rule) -/

/-- The two requests of a setter, the second once the first has returned `t0` (R130). -/
def setterRequests {n : Nat} (id : BitVec 6) (m : Reg16) (lo : Nat) (val : BitVec n) (t0 : Reg16) : List Request :=
  [rdReg (slaveOf id) 0x02, wrReg (slaveOf id) 0x02 (mergeField m lo val t0)]

/-- The transport requests of a command, in `USEQ` order; `t0` is what T0 holds when the second is issued. -/
def scheduled (t0 : Reg16) : Instr → List Request
  | .wrreg id addr data => [wrReg (slaveOf id) addr data]
  | .rdreg id addr => [rdReg (slaveOf id) addr]
  | .swrst id => setterRequests id mRst rstPos 1#1 t0
  | .setmode id mode => setterRequests id mMod modLo mode t0
  | .setrate id rate => setterRequests id mCr crLo rate t0
  | .setdrdyen id en => setterRequests id mEn enPos en t0
  | .clrdrdy id => setterRequests id mDrdy drdyPos 0#1 t0
  | .getmode id => [rdReg (slaveOf id) 0x02]
  | .getrate id => [rdReg (slaveOf id) 0x02]
  | .getdrdyen id => [rdReg (slaveOf id) 0x02]
  | .getdrdy id => [rdReg (slaveOf id) 0x02]
  | .getmfgid id => [rdReg (slaveOf id) 0xFE]
  | .getdevid id => [rdReg (slaveOf id) 0xFF]
  | .getamb id => [rdReg (slaveOf id) 0x01]
  | .getobj id => [rdReg (slaveOf id) 0x01, rdReg (slaveOf id) 0x00]
  | .getobjtc id _ => [rdReg (slaveOf id) 0x01, rdReg (slaveOf id) 0x00]
  | .ringrd _ _ => []
  | .ringwr _ _ _ => []
  | .ringclr _ => []
  | .crc8 _ _ _ _ => []
  | .crcchk _ _ _ => []
  | .shtinit => [.devOpen, .devSelect 0x44]
  | .shttemp => [.devWrite [0x2C, 0x06] 2, .devRead 6]
  | .shthum => [.devWrite [0x2C, 0x06] 2, .devRead 6]

/-- Commands that look at the session before they ask for anything (R187). -/
def needsSession : Instr → Bool
  | .shttemp => true
  | .shthum => true
  | .wrreg _ _ _ => false
  | .rdreg _ _ => false
  | .swrst _ => false
  | .getmode _ => false
  | .setmode _ _ => false
  | .getrate _ => false
  | .setrate _ _ => false
  | .getdrdyen _ => false
  | .setdrdyen _ _ => false
  | .getdrdy _ => false
  | .clrdrdy _ => false
  | .getmfgid _ => false
  | .getdevid _ => false
  | .getamb _ => false
  | .getobj _ => false
  | .getobjtc _ _ => false
  | .ringrd _ _ => false
  | .ringwr _ _ _ => false
  | .ringclr _ => false
  | .crc8 _ _ _ _ => false
  | .crcchk _ _ _ => false
  | .shtinit => false

/-! ## The invariant -/

/-- The codes STATUS may hold (R22, R215). -/
def statusCodes : List Code := [0, -1, -2, -3, -4, -5, -128]
/-- The values SESS_ERR may hold (R28). -/
def sessionCodes : List Code := [0, -1, -2]

/-- A busy block is waiting: CUR holds a command, the request of its rule at `USEQ` stands on the port, and a
measurement got past its session test (R29, R61, R63, R75, R187). -/
def waitingRight (s : State) : Bool :=
  match decode s.cur with
  | .command i => s.port.isSome && s.port == (scheduled s.t0 i)[s.useq.toNat]? && (!needsSession i || s.sessErr == 0)
  | .illegal _ => false

/-- What holds of every reachable state: legal codes, results zero beside an error (R23), an idle sequencer at rest
(R26, R29), a busy one waiting for the right request, and the standing request the last one issued. -/
def BlockInv (s : State) : Bool :=
  statusCodes.contains s.status && (s.status == 0 || (s.res0 == 0 && s.res1 == 0))
  && sessionCodes.contains s.sessErr
  && (if s.busy then waitingRight s && !s.rspValid else s.useq == 0 && s.port == none)
  && (s.port == none || s.requests.getLast? == s.port)

end Sys2Proof.Machine
end

