-- ==== Sys2Proof/Certificates/Slice0/Obligations.lean ====
section
/-! DEFINITION. The statements for the provers, and the words they are written in. The requests and results are written
out here from the rules, with the rules' own numbers and bit slices, and not through the operations the meanings call. -/

open Sys2Proof Sys2Proof.Machine

namespace Sys2Proof.Machine

/-! ## The spec's requests and words, written out -/

/-- `ComboRead(0x40 + ID, [ptr], 1, 2)`. -/
def tmpRead (id : BitVec 6) (ptr : Byte) : Request := .comboRead (0x40 + id.setWidth 7) [ptr] 1 2

/-- `Write(0x40 + ID, [ptr, v[15:8], v[7:0]], 3)`. -/
def tmpWrite (id : BitVec 6) (ptr : Byte) (v : Reg16) : Request :=
  .write (0x40 + id.setWidth 7) [ptr, v.extractLsb' 8 8, v.extractLsb' 0 8] 3

/-- The register value an answer of a `ComboRead` carries, the first byte most significant. -/
def Answer.word (a : Answer) : Reg16 := a.bytes.b0 ++ a.bytes.b1

/-- The commands that read one register and answer a function of its value: instance, pointer, `RES0` (R121, R133,
R135, R137, R139, R141, R142, R155). -/
def singleRead : Instr → Option (BitVec 6 × Byte × (Reg16 → BitVec 32))
  | .rdreg id addr => some (id, addr, fun v => v.setWidth 32)
  | .getmode id => some (id, 0x02, fun v => (v.extractLsb' 12 3).setWidth 32)
  | .getrate id => some (id, 0x02, fun v => (v.extractLsb' 9 3).setWidth 32)
  | .getdrdyen id => some (id, 0x02, fun v => (v.extractLsb' 8 1).setWidth 32)
  | .getdrdy id => some (id, 0x02, fun v => (v.extractLsb' 7 1).setWidth 32)
  | .getmfgid id => some (id, 0xFE, fun v => v.setWidth 32)
  | .getdevid id => some (id, 0xFF, fun v => v.setWidth 32)
  | .getamb id => some (id, 0x01, fun v => (v.extractLsb' 2 14).signExtend 32)
  | _ => none

/-- The setters: instance, field mask, and the word written as a function of the word read (R132, R134, R136, R138,
R140). -/
def setter : Instr → Option (BitVec 6 × Reg16 × (Reg16 → Reg16))
  | .swrst id => some (id, 0x8000, fun t => t ||| 0x8000)
  | .setmode id mode => some (id, 0x7000, fun t => (t &&& 0x8FFF) ||| (mode.setWidth 16 <<< 12))
  | .setrate id rate => some (id, 0x0E00, fun t => (t &&& 0xF1FF) ||| (rate.setWidth 16 <<< 9))
  | .setdrdyen id en => some (id, 0x0100, fun t => (t &&& 0xFEFF) ||| (en.setWidth 16 <<< 8))
  | .clrdrdy id => some (id, 0x0080, fun t => t &&& 0xFF7F)
  | _ => none

/-- The five fields of the configuration register: mask, lowest bit, width (R32, R33). -/
def configFields : List (Reg16 × Nat × Nat) :=
  [(0x8000, 15, 1), (0x7000, 12, 3), (0x0E00, 9, 3), (0x0100, 8, 1), (0x0080, 7, 1)]

/-- `RES0` of GETOBJ: 5 times the die-temperature code, plus 43704 (R152). -/
def kelvin160 (raw : Reg16) : Int := 5 * (raw.extractLsb' 2 14).toInt + 43704

/-- `N` of four ring entries (R162). -/
def slopeOf (h0 h1 h2 h3 : Sample) : Int :=
  if h0 = 0 then 0 else -3 * (h0.toNat : Int) - (h1.toNat : Int) + (h2.toNat : Int) + 3 * (h3.toNat : Int)

/-- Ring `r` of `s` after a GETOBJTC whose die-temperature read returned `raw` (R161). -/
def shifted (s : State) (r : BitVec 3) (raw : Reg16) : SampleRing :=
  ⟨(s.ring r).h1, (s.ring r).h2, (s.ring r).h3, .ofInt 17 (kelvin160 raw)⟩

/-- `RES1` of GETOBJTC for a ring as it stands after the shift, and a voltage read `rawv` (R163). -/
def correctedVq (h : SampleRing) (rawv : Reg16) : BitVec 32 :=
  .ofInt 32 (125 * rawv.toInt + 148 * slopeOf h.h0 h.h1 h.h2 h.h3)

/-- A series of GETOBJTC commands on ring `r`, each with its own instance and its two answers, each started when the
one before has delivered its response. -/
def getobjtcSeries (r : BitVec 3) : List (BitVec 6 × Answer × Answer) → State → State
  | [], s => s
  | (id, a, b) :: more, s =>
    match exec (.getobjtc id r) { s with busy := true, useq := 0, port := none, answers := [a, b] } with
    | .next t => getobjtcSeries r more t
    | .fault _ => s
    | .refused _ => s

/-- The request is of a form the block issues (R57, R58, R60, R70). -/
def Request.Issuable (r : Request) : Prop :=
  (∃ id ptr v, r = tmpWrite id ptr v) ∨ (∃ id ptr, r = tmpRead id ptr) ∨ r = .devOpen ∨ r = .devSelect 0x44 ∨
  r = .devWrite [0x2C, 0x06] 2 ∨ r = .devRead 6

end Sys2Proof.Machine

/-! ## Encoding -/

/-- Decoding the word of a command gives the command back, every operand at every value its field admits (R94 to R97).
The whole encoding is the spec's own decision D1. -/
def Obligations.DecodeOfEncodeIsTheCommand : Prop := ∀ i : Instr, decode (encode i) = .command i

/-- A word that decodes to a command is that command's word: a legal word has no bit that the command does not
account for (R94 to R98). -/
def Obligations.LegalWordIsTheEncodingOfItsCommand : Prop :=
  ∀ (w : CmdWord) (i : Instr), decode w = .command i → encode i = w

/-- No word satisfies two rows of the opcode map, and a word is a command exactly when it satisfies its row (R97,
R98). -/
def Obligations.EachWordMatchesAtMostOneRow : Prop :=
  opcodeMap.length = 24 ∧
  opcodeMap.Pairwise (fun r q => ∀ w : CmdWord, ¬(w &&& r.mask = r.bits ∧ w &&& q.mask = q.bits)) ∧
  ∀ (w : CmdWord) (i : Instr), decode w = .command i ↔ ∃ r ∈ opcodeMap, w &&& r.mask = r.bits ∧ r.build w = i

/-- The two cases in which a word is illegal (R99): `OPC` unassigned, or `OPC` listed and the word off its row. -/
def Obligations.IllegalWordsHaveOneOfTwoCauses : Prop :=
  ∀ w : CmdWord,
    (decode w = .illegal .unassignedOpcode ↔
      ∀ r ∈ opcodeMap, w.extractLsb' 40 8 ≠ r.bits.extractLsb' 40 8) ∧
    (decode w = .illegal .reservedBitSet ↔
      ∃ r ∈ opcodeMap, w.extractLsb' 40 8 = r.bits.extractLsb' 40 8 ∧ w &&& r.mask ≠ r.bits)

/-- An illegal word on the command port is accepted and ends at once with −128: no request, no ring, no SESS_ERR
changes (R99, R219, R222; −128 is the spec's decision D12). -/
def Obligations.IllegalWordAnswersMinus128 : Prop :=
  ∀ (s : State) (w : CmdWord) (rest : List CmdWord) (why : IllegalWord),
    s.rst = false → s.busy = false → s.cmds = w :: rest → decode w = .illegal why →
    step s = .next { s with cur := w, cmds := rest, status := 0x80, res0 := 0, res1 := 0, rspValid := true,
                            busy := false, useq := 0, port := none }

/-- Words of the spec's examples (R101, R120, R121, R134, R138, R166, R167, R177, R178, R186 and vector V23) decode as
the spec writes them. -/
def Obligations.SpecExampleWordsDecodeAsWritten : Prop :=
  decode 0x010302007400 = .command (.wrreg 3 0x02 0x7400) ∧
  decode 0x0201FE000000 = .command (.rdreg 1 0xFE) ∧
  decode 0x120000000007 = .command (.setmode 0 7) ∧
  decode 0x160000000001 = .command (.setdrdyen 0 1) ∧
  decode 0x220108000000 = .command (.getobjtc 1 2) ∧
  decode 0x31000400BA58 = .command (.ringwr 1 0 47704) ∧
  decode 0x32001C000000 = .command (.ringclr 7) ∧
  decode 0x400002BEEF00 = .command (.crc8 2 0xBE 0xEF 0x00) ∧
  decode 0x410000BEEF92 = .command (.crcchk 0xBE 0xEF 0x92) ∧
  decode 0x500000000000 = .command .shtinit

/-- Every command has a written line that assembles to it, and a line assembles exactly when it has its mnemonic's
operand count and every number fits its field (R101, R94; decision D1). -/
def Obligations.LinesAssembleExactlyWhenOperandsFit : Prop :=
  (∀ i : Instr, i.line.assemble = some i) ∧ ∀ l : Line, l.assemble.isSome = l.wellFormed

/-! ## One step -/

/-- A step runs the decoded command: an idle block accepts the word on the port (`CUR <- cmd`, `BUSY <- 1`,
`USEQ <- 0`) and executes it, a busy block executes the command in CUR, and an idle block with no word presented only
drops `rsp_valid` (R91, R92, R98). How far one step carries a command is the model's choice (log 1). -/
def Obligations.StepRunsTheDecodedCommand : Prop :=
  ∀ s : State, s.rst = false →
    (∀ w rest i, s.busy = false → s.cmds = w :: rest → decode w = .command i →
      step s = exec i { s with rspValid := false, cur := w, busy := true, useq := 0, port := none, cmds := rest }) ∧
    (∀ i, s.busy = true → decode s.cur = .command i → step s = exec i { s with rspValid := false }) ∧
    (s.busy = false → s.cmds = [] → step s = .next { s with rspValid := false })

/-- While `BUSY = 1` the command port is ignored: whatever the host presents, the step does the same and takes no word
(R91, R265). -/
def Obligations.BusyBlockIgnoresTheCommandPort : Prop :=
  ∀ (s : State) (c : List CmdWord), s.rst = false → s.busy = true →
    ∃ t, step s = .next t ∧ t.cmds = s.cmds ∧ step { s with cmds := c } = .next { t with cmds := c }

/-- No step faults or is refused: the block itself never does (R232). That a state waiting for an unanswered request has a
next state too is the model's choice (log 2): R63 says that a model gives the block no step there. -/
def Obligations.NoStepFaultsOrIsRefused : Prop := ∀ s : State, ∃ t, step s = .next t

/-- STATUS, RES0 and RES1 keep the last response until the next one, and a response ends its command: BUSY and USEQ
are 0 with it (R22, R92). That `rsp_valid` is 1 until the next step begins is the model's choice (log 9). -/
def Obligations.ResponseRegistersHoldUntilTheNextResponse : Prop :=
  ∀ s t : State, s.rst = false → step s = .next t →
    (t.rspValid = false → t.status = s.status ∧ t.res0 = s.res0 ∧ t.res1 = s.res1) ∧
    (t.rspValid = true → t.busy = false ∧ t.useq = 0 ∧ (s.busy = true ∨ s.cmds ≠ []))

/-- A response with a non-zero status carries zero results (R23, R222). -/
def Obligations.ErrorResponsesCarryZeroResults : Prop :=
  ∀ s t : State, step s = .next t → t.rspValid = true → t.status ≠ 0 → t.res0 = 0 ∧ t.res1 = 0

/-! ## Reset -/

/-- The values R38 gives for reset, in State.reset; the registers the rule leaves unspecified are not mentioned (the
values State.reset has there are the model's choice, log 5). -/
def Obligations.ResetStateHoldsTheStatedValues : Prop :=
  State.reset.status = 0 ∧ State.reset.res0 = 0 ∧ State.reset.res1 = 0 ∧ State.reset.busy = false ∧
  State.reset.useq = 0 ∧ (∀ r i, (State.reset.ring r).get i = 0) ∧ State.reset.sessErr = -1 ∧
  State.reset.cmdReady = true

/-- `rst` wins in every state (R220): the step leaves the values of R38, delivers no response (R40, R250) and issues no
request (R250, R251). That it takes an unanswered request off the port and keeps the inputs `rst`, `cmds`, `answers` and
the record of the requests made is the model's choice (log 7). CUR, T0, T1 and FR are not mentioned: they are free
(log 6). -/
def Obligations.RstWinsInEveryState : Prop :=
  ∀ s : State, s.rst = true → ∃ t, step s = .next t ∧
    t.status = 0 ∧ t.res0 = 0 ∧ t.res1 = 0 ∧ t.busy = false ∧ t.useq = 0 ∧ (∀ r i, (t.ring r).get i = 0) ∧
    t.sessErr = -1 ∧ t.rspValid = false ∧ t.port = none ∧ t.requests = s.requests ∧
    t.rst = true ∧ t.cmds = s.cmds ∧ t.answers = s.answers

/-! ## Invariants -/

/-- The invariant of Safety.lean is kept by every step, from every state that meets it: STATUS and SESS_ERR hold legal
codes (R22, R28), results are 0 beside an error (R23), an idle sequencer is at rest (R26, R29), and a busy block waits
with exactly the request of its command's rule at `USEQ` on the port (R61, R75). -/
def Obligations.EveryStepKeepsTheInvariant : Prop :=
  ∀ s t : State, BlockInv s = true → step s = .next t → BlockInv t = true

/-- The reset state meets the invariant. -/
def Obligations.ResetMeetsTheInvariant : Prop := BlockInv State.reset = true

/-- Nothing the host or the transport does between two steps breaks the invariant (R5, R62). -/
def Obligations.TheOutsideKeepsTheInvariant : Prop :=
  ∀ s t : State, BlockInv s = true → InputChange s t → BlockInv t = true

/-- Every state the block can be in, whatever the host and the transport do between its steps and in whatever order it is
reset, meets the invariant. -/
def Obligations.ReachableStatesMeetTheInvariant : Prop := ∀ s : State, Reachable s → BlockInv s = true

/-! ## The transport port -/

/-- A command issues the requests of its rule in `USEQ` order and no others (R61, R75, R221). With `k` answers used, an
ended command has issued the first `k`, and all of them when it ends with status 0; a waiting one has used every answer
there is and has issued the first `k + 1`, the last of which stands on the port. That a command does not wait while an
answer is there is the model's choice (log 1). -/
def Obligations.CommandsFollowTheirSchedule : Prop :=
  ∀ (i : Instr) (s t : State), s.Starting → exec i s = .next t →
    ∃ k, k ≤ s.answers.length ∧ t.answers = s.answers.drop k ∧
      ((t.busy = false ∧ t.port = none ∧ t.requests = s.requests ++ (scheduled t.t0 i).take k ∧
        k ≤ (scheduled t.t0 i).length ∧ (t.status = 0 → k = (scheduled t.t0 i).length)) ∨
       (t.busy = true ∧ t.answers = [] ∧ t.useq.toNat = k ∧ t.port = (scheduled t.t0 i)[k]? ∧ t.port ≠ none ∧
        t.requests = s.requests ++ (scheduled t.t0 i).take (k + 1)))

/-- Every request the block issues is one of the six forms of R70: 3-byte writes and 2-byte reads at `0x40 + ID`, the
device open, the select of 0x44, the write of 0x2C 0x06, the read of 6 bytes (R57, R58, R60, R70). -/
def Obligations.OnlyTheSixRequestFormsAreIssued : Prop :=
  ∀ (i : Instr) (s t : State), exec i s = .next t →
    ∃ new, t.requests = s.requests ++ new ∧ ∀ r ∈ new, r.Issuable

/-- The slave address of instance `id` is `0x40 + id` as a number, from 0x40 to 0x7F, and different instances have
different addresses (R50; the width of `ID` is the spec's decision D4). -/
def Obligations.SlaveAddressNeverWraps : Prop :=
  ∀ id : BitVec 6, (slaveOf id).toNat = 0x40 + id.toNat ∧ 0x40 ≤ (slaveOf id).toNat ∧ (slaveOf id).toNat ≤ 0x7F ∧
    ∀ id', slaveOf id' = slaveOf id → id' = id

/-- A command ends, with one response, once the transport has answered as many requests as its rule lists (R63, R92).
That one step carries it there is the model's choice (log 1). -/
def Obligations.AnsweredCommandsEnd : Prop :=
  ∀ (i : Instr) (s : State), s.Starting → (scheduled s.t0 i).length ≤ s.answers.length →
    ∃ t, exec i s = .next t ∧ t.busy = false ∧ t.rspValid = true ∧ t.useq = 0 ∧ t.port = none

/-- A request that is never answered holds the block where it is: no step changes anything, whatever words the host
presents (R63, R265). That waiting is a next state is the model's choice (log 2). -/
def Obligations.UnansweredRequestHoldsTheBlock : Prop :=
  ∀ s : State, BlockInv s = true → s.rst = false → s.busy = true → s.answers = [] → step s = .next s

/-- Answers given one at a time and answers given together lead to the same state, for every command: the outside may
act between any two requests (R71). That a step takes as many answers as there are is the model's choice (log 1), and by
this statement the choice hides nothing. -/
def Obligations.AnswersMayComeOneAtATime : Prop :=
  ∀ (i : Instr) (s m : State), s.Starting →
    (∀ more, exec i { s with answers := [] } = .next m → m.busy = true →
      exec i { m with answers := more } = exec i { s with answers := more }) ∧
    (∀ a more, exec i { s with answers := [a] } = .next m → m.busy = true →
      exec i { m with answers := more } = exec i { s with answers := a :: more })

/-! ## Who writes and reads what (R25, R27 to R30) -/

/-- A ring changes only by reset, by GETOBJTC on that ring, by RINGWR on that ring and by RINGCLR on that ring
(R25). -/
def Obligations.RingsChangeOnlyByTheirFourWriters : Prop :=
  ∀ (s t : State) (r : BitVec 3), step s = .next t → t.ring r ≠ s.ring r →
    s.rst = true ∨ (∃ id, decode t.cur = .command (.getobjtc id r)) ∨
    (∃ idx val, decode t.cur = .command (.ringwr r idx val)) ∨ decode t.cur = .command (.ringclr r)

/-- SESS_ERR is written only by SHTINIT and by reset, it keeps to its three legal values, and a measurement in a session
that is not usable ends with the stored value as its status and asks nothing of the transport (R28). -/
def Obligations.SessionRegisterDiscipline : Prop :=
  (∀ s t : State, step s = .next t → t.sessErr ≠ s.sessErr →
    s.rst = true ∨ decode t.cur = .command .shtinit) ∧
  (∀ s t : State, step s = .next t → s.sessErr = 0 ∨ s.sessErr = -1 ∨ s.sessErr = -2 →
    t.sessErr = 0 ∨ t.sessErr = -1 ∨ t.sessErr = -2) ∧
  (∀ s : State, s.Starting → s.sessErr ≠ 0 →
    exec .shttemp s = .next (ended s s.sessErr 0 0 s.answers s.requests) ∧
    exec .shthum s = .next (ended s s.sessErr 0 0 s.answers s.requests))

/-- The access table for the registers a command may write besides the response registers and the sequencer (R30): T1
never, CUR only at acceptance, T0 only by setters, GETOBJ and GETOBJTC, FR only by SHTTEMP and SHTHUM. Of the inputs, a
command changes neither `rst` nor `cmds`, and takes answers only from the front of `answers` (log 3). That the response
leaves CUR, T0, T1 and FR as they are, where R29 calls them no longer meaningful, is deduced (log 19). -/
def Obligations.CommandsWriteOnlyTheirOwnRegisters : Prop :=
  ∀ (i : Instr) (s t : State), exec i s = .next t →
    t.t1 = s.t1 ∧ t.cur = s.cur ∧ t.rst = s.rst ∧ t.cmds = s.cmds ∧ t.draws = s.draws ∧ t.answers <:+ s.answers ∧
    (t.t0 ≠ s.t0 → (setter i).isSome ∨ (∃ id, i = .getobj id) ∨ ∃ id r, i = .getobjtc id r) ∧
    (t.fr ≠ s.fr → i = .shttemp ∨ i = .shthum)

/-- Earlier commands reach a later one only through SESS_ERR and the rings (R27, R29, R223): two starting states that
agree on these and get the same answers do the same, whatever the response registers, CUR and the temporaries hold. -/
def Obligations.HistoryReachesCommandsOnlyThroughSessionAndRings : Prop :=
  ∀ (i : Instr) (s s' : State), s.Starting → s'.Starting → s.sessErr = s'.sessErr → s.rings = s'.rings →
    s.answers = s'.answers →
    ∃ t t' new, exec i s = .next t ∧ exec i s' = .next t' ∧
      t.busy = t'.busy ∧ t.useq = t'.useq ∧ t.port = t'.port ∧ t.sessErr = t'.sessErr ∧ t.rings = t'.rings ∧
      t.answers = t'.answers ∧ t.requests = s.requests ++ new ∧ t'.requests = s'.requests ++ new ∧
      (t.busy = false → t.status = t'.status ∧ t.res0 = t'.res0 ∧ t.res1 = t'.res1)

/-- No command but the four of the ring family reads a ring, and no command but the three of the SHT31 reads SESS_ERR:
with other contents there, everything else comes out the same (R25, R30, R255). -/
def Obligations.FamiliesShareNoState : Prop :=
  (∀ (i : Instr) (s : State) (rings : Vector SampleRing 8),
    (∀ id r, i ≠ .getobjtc id r) → (∀ r x, i ≠ .ringrd r x) → (∀ r x v, i ≠ .ringwr r x v) →
    (∀ r, i ≠ .ringclr r) →
    ∃ t, exec i s = .next t ∧ exec i { s with rings := rings } = .next { t with rings := rings }) ∧
  (∀ (i : Instr) (s : State) (e : Code), i ≠ .shtinit → i ≠ .shttemp → i ≠ .shthum →
    ∃ t, exec i s = .next t ∧ exec i { s with sessErr := e } = .next { t with sessErr := e })

/-- The TMP006 commands, the ring commands and CRC8 never end with a non-zero status (R216). -/
def Obligations.TransportFailuresNeverSurface : Prop :=
  ∀ (i : Instr) (s t : State), (∀ b0 b1 c, i ≠ .crcchk b0 b1 c) → i ≠ .shtinit → i ≠ .shttemp → i ≠ .shthum →
    s.busy = true → exec i s = .next t → t.busy = false → t.status = 0

/-! ## Register access and configuration fields -/

/-- WRREG (R120): one 3-byte frame, pointer first, then the most significant byte; the response is (0, 0, 0) whatever
the transport did. Everything else is unchanged. -/
def Obligations.WrregWritesOneFrame : Prop :=
  ∀ (id : BitVec 6) (addr : Byte) (data : Reg16) (s : State) (a : Answer) (rest : List Answer),
    s.answers = a :: rest →
    exec (.wrreg id addr data) s = .next (ended s 0 0 0 rest (s.requestsWith (tmpWrite id addr data)))

/-- RDREG, GETMODE, GETRATE, GETDRDYEN, GETDRDY, GETMFGID, GETDEVID, GETAMB (R121, R131, R133, R135, R137, R139, R141,
R142, R155): one read, and `RES0` is the value, its field right-justified, or its top 14 bits sign-extended. Everything
else is unchanged. The field positions are the spec's decision D5 (log 10). -/
def Obligations.SingleReadCommandsAnswerTheirField : Prop :=
  ∀ (i : Instr) (id : BitVec 6) (ptr : Byte) (f : Reg16 → BitVec 32) (s : State) (a : Answer) (rest : List Answer),
    singleRead i = some (id, ptr, f) → s.answers = a :: rest →
    exec i s = .next (ended s 0 (f a.word) 0 rest (s.requestsWith (tmpRead id ptr)))

/-- SWRST, SETMODE, SETRATE, SETDRDYEN, CLRDRDY (R130, R132, R134, R136, R138, R140): read the configuration register
into T0, write it back with the one field replaced, respond (0, 0, 0). Between the two requests the command waits with
the word to be written on the port, and what happens there does not reach it: the word comes from T0 (R71, R256).
Everything else is unchanged. The field positions are the spec's decision D5 (log 10). That T0 keeps the value read after
the response, where R29 calls it no longer meaningful, is deduced (log 19). -/
def Obligations.SettersReadThenWrite : Prop :=
  ∀ (i : Instr) (id : BitVec 6) (m : Reg16) (f : Reg16 → Reg16) (s : State), setter i = some (id, m, f) →
    (∀ a b rest, s.useq = 0 → s.answers = a :: b :: rest →
      exec i s = .next { ended s 0 0 0 rest (s.requestsWith (tmpRead id 0x02) ++ [tmpWrite id 0x02 (f a.word)]) with
                         t0 := a.word }) ∧
    (∀ a, s.useq = 0 → s.answers = [a] →
      exec i s = .next { waitingOn s 1 (tmpWrite id 0x02 (f a.word))
                           (s.requestsWith (tmpRead id 0x02) ++ [tmpWrite id 0x02 (f a.word)]) with t0 := a.word }) ∧
    (∀ b rest, s.useq ≠ 0 → s.answers = b :: rest →
      exec i s = .next (ended s 0 0 0 rest (s.requestsWith (tmpWrite id 0x02 (f s.t0)))))

/-- A setter changes no bit outside its field, whatever the field (R34): not when both answers are there; not in the word
it waits to write, when it keeps the value read in T0; and not when it goes on after that wait, where the word that stands
on the port, the last of the requests, has the bits of T0, and going on issues no other. The third clause is about states
no run reaches, past the read with nothing on the port (log 13). The five masks are those of R33, the spec's decision D5
(log 10). -/
def Obligations.SettersPreserveBitsOutsideTheField : Prop :=
  ∀ (i : Instr) (id : BitVec 6) (m : Reg16) (f : Reg16 → Reg16) (s : State), setter i = some (id, m, f) →
    (∀ a b rest, s.useq = 0 → s.answers = a :: b :: rest →
      ∃ t w, exec i s = .next t ∧ t.requests = s.requestsWith (tmpRead id 0x02) ++ [tmpWrite id 0x02 w] ∧
        ∀ k, m.getLsbD k = false → w.getLsbD k = a.word.getLsbD k) ∧
    (∀ a, s.useq = 0 → s.answers = [a] →
      ∃ t w, exec i s = .next t ∧ t.port = some (tmpWrite id 0x02 w) ∧ t.t0 = a.word ∧ t.useq = 1 ∧
        t.requests = s.requestsWith (tmpRead id 0x02) ++ [tmpWrite id 0x02 w] ∧
        ∀ k, m.getLsbD k = false → w.getLsbD k = a.word.getLsbD k) ∧
    (∀ b rest, s.useq ≠ 0 → s.port = none → s.answers = b :: rest →
      ∃ t w, exec i s = .next t ∧ t.requests = s.requests ++ [tmpWrite id 0x02 w] ∧
        ∀ k, m.getLsbD k = false → w.getLsbD k = s.t0.getLsbD k) ∧
    (BlockInv s = true → s.busy = true → decode s.cur = .command i → s.useq ≠ 0 →
      ∃ t w, s.port = some (tmpWrite id 0x02 w) ∧ (∀ k, m.getLsbD k = false → w.getLsbD k = s.t0.getLsbD k) ∧
        exec i s = .next t ∧ t.requests = s.requests ∧ t.requests.getLast? = some (tmpWrite id 0x02 w) ∧
        (s.answers = [] → t = s) ∧ (s.answers ≠ [] → t.busy = false ∧ t.port = none))

/-- The five masks are disjoint, cover 0xFF80, and have the widths 1, 3, 3, 1, 1 (R33); for each of them the getter
applied to the word a setter wrote returns the value set, and every other field is untouched (R143, an inference the
spec draws from R130 and R131). The field positions are the spec's decision D5 (log 10). -/
def Obligations.FieldWritesRoundTrip : Prop :=
  configFields.Pairwise (fun x y => x.1 &&& y.1 = 0) ∧
  configFields.foldl (fun acc x => acc ||| x.1) 0 = 0xFF80 ∧
  (∀ x ∈ configFields, x.1 = BitVec.ofNat 16 ((2 ^ x.2.2 - 1) * 2 ^ x.2.1)) ∧
  ∀ x ∈ configFields, ∀ val t0 : Reg16, val.toNat < 2 ^ x.2.2 →
    fieldOf x.1 x.2.1 (mergeField x.1 x.2.1 val t0) = val ∧
    ∀ y ∈ configFields, y ≠ x → mergeField x.1 x.2.1 val t0 &&& y.1 = t0 &&& y.1

/-- A register value written by WRREG and answered back unchanged is read by RDREG as it was (R122, an inference the spec
draws from R64 and R66). -/
def Obligations.WrittenBytesReadBackAsTheValue : Prop :=
  ∀ (id : BitVec 6) (addr : Byte) (data : Reg16) (s u : State) (a b : Answer) (rest more : List Answer),
    s.port = none → s.answers = a :: rest → u.answers = b :: more →
    ∃ t v hi lo, exec (.wrreg id addr data) s = .next t ∧ exec (.rdreg id addr) u = .next v ∧
      t.requests = s.requests ++ [.write (slaveOf id) [addr, hi, lo] 3] ∧
      (b.bytes.b0 = hi → b.bytes.b1 = lo → v.res0 = data.setWidth 32)

/-! ## Fixed-point decoder -/

/-- The die-temperature code is the top 14 bits of the register value as two's complement, from −8192 to 8191, and the
low two bits have no effect on a result (R150). -/
def Obligations.DieCodeIsTheTopFourteenBits : Prop :=
  ∀ raw : Reg16, (∀ k, k < 14 → (dieCode raw).getLsbD k = raw.getLsbD (k + 2)) ∧
    (dieCode raw).toInt = raw.toInt / 4 ∧ -8192 ≤ (dieCode raw).toInt ∧ (dieCode raw).toInt ≤ 8191 ∧
    ∀ raw' : Reg16, raw'.extractLsb' 2 14 = raw.extractLsb' 2 14 → t32 raw' = t32 raw ∧ k160 raw' = k160 raw

/-- `T32` and `K160` are exact: the code, and 5 times the code plus 43704, from 2744 to 84659 and so never 0 (R151, R152,
R153; the unit is the spec's decision D8). -/
def Obligations.DieTemperatureScalingIsExact : Prop :=
  ∀ raw : Reg16, (t32 raw).toInt = raw.toInt / 4 ∧ ((k160 raw).toNat : Int) = 5 * (raw.toInt / 4) + 43704 ∧
    2744 ≤ (k160 raw).toNat ∧ (k160 raw).toNat ≤ 84659 ∧ k160 raw ≠ 0

/-- `VQ` is 125 times the signed code, from −4096000 to 4095875, with no narrowing loss (R154; the unit is the spec's
decision D9). -/
def Obligations.ObjectVoltageScalingIsExact : Prop :=
  ∀ raw : Reg16, (vq raw).toInt = 125 * raw.toInt ∧ -4096000 ≤ (vq raw).toInt ∧ (vq raw).toInt ≤ 4095875

/-- The consumer's readings of the results are the document's quantities, exactly: code times 0.03125 °C, Celsius plus
273.15 K, code times 156.25e-9 V (R151, R152, R154, R157; decisions D8 and D9). -/
def Obligations.ConsumerReadingsAreTheDocumentsQuantities : Prop :=
  ∀ raw : Reg16,
    celsiusOfT32 (t32 raw) = ((raw.toInt / 4 : Int) : ℚ) * (3125 / 100000) ∧
    kelvinOfK160 ((k160 raw).setWidth 32) = celsiusOfT32 (t32 raw) + 27315 / 100 ∧
    voltsOfVq (vq raw) = (raw.toInt : ℚ) * (15625 / 100 / 1000000000)

/-- GETOBJ (R156): die temperature first into T0, object voltage second, `RES0` in 1/160 K and `RES1` in 1.25 nV; no
ring and nothing else changes. With one answer it waits for the voltage; resumed, it uses the T0 it holds. That T0 keeps
the die temperature after the response is deduced (log 19). -/
def Obligations.GetobjAnswersTemperatureAndVoltage : Prop :=
  ∀ (id : BitVec 6) (s : State),
    (∀ a b rest, s.useq = 0 → s.answers = a :: b :: rest →
      exec (.getobj id) s = .next { ended s 0 (.ofInt 32 (kelvin160 a.word)) (.ofInt 32 (125 * b.word.toInt)) rest
        (s.requestsWith (tmpRead id 0x01) ++ [tmpRead id 0x00]) with t0 := a.word }) ∧
    (∀ a, s.useq = 0 → s.answers = [a] →
      exec (.getobj id) s = .next { waitingOn s 1 (tmpRead id 0x00)
        (s.requestsWith (tmpRead id 0x01) ++ [tmpRead id 0x00]) with t0 := a.word }) ∧
    (∀ b rest, s.useq ≠ 0 → s.answers = b :: rest →
      exec (.getobj id) s = .next (ended s 0 (.ofInt 32 (kelvin160 s.t0)) (.ofInt 32 (125 * b.word.toInt)) rest
        (s.requestsWith (tmpRead id 0x00))))

/-! ## Transient correction -/

/-- Shift and append (R161): the oldest entry is discarded, the new one is the newest, all at once. -/
def Obligations.AppendShiftsTheRing : Prop :=
  ∀ (h : SampleRing) (k : Sample), (h.append k).get 0 = h.get 1 ∧ (h.append k).get 1 = h.get 2 ∧
    (h.append k).get 2 = h.get 3 ∧ (h.append k).get 3 = k

/-- GETOBJTC (R161, R163, R164): when the die temperature arrives the selected ring shifts, and no other; then the
voltage is read, and the results are the newest sample and the corrected voltage. With one answer it waits with the ring
already shifted; resumed, it uses the ring as it stands. Everything else is unchanged. The sign of the correction is the
spec's decision D10 and the moment of the shift D25 (log 11). That T0 keeps the die temperature after the response is
deduced (log 19). -/
def Obligations.GetobjtcShiftsTheRingAndCorrects : Prop :=
  ∀ (id : BitVec 6) (r : BitVec 3) (s : State),
    (∀ a b rest, s.useq = 0 → s.answers = a :: b :: rest →
      exec (.getobjtc id r) s = .next { ended s 0 (.ofInt 32 (kelvin160 a.word)) (correctedVq (shifted s r a.word) b.word)
        rest (s.requestsWith (tmpRead id 0x01) ++ [tmpRead id 0x00]) with
          t0 := a.word, rings := s.rings.set r.toNat (shifted s r a.word) }) ∧
    (∀ a, s.useq = 0 → s.answers = [a] →
      exec (.getobjtc id r) s = .next { waitingOn s 1 (tmpRead id 0x00)
        (s.requestsWith (tmpRead id 0x01) ++ [tmpRead id 0x00]) with
          t0 := a.word, rings := s.rings.set r.toNat (shifted s r a.word) }) ∧
    (∀ b rest, s.useq ≠ 0 → s.answers = b :: rest →
      exec (.getobjtc id r) s = .next (ended s 0 ((s.ring r).h3.setWidth 32) (correctedVq (s.ring r) b.word) rest
        (s.requestsWith (tmpRead id 0x00))))

/-- The slope numerator (R162): 0 on a ring whose oldest entry is 0 and the weighted sum otherwise, bounded by 524284 with
the extreme attained, blind to the Kelvin offset, and 1600 times the document's slope in Kelvin per sample. -/
def Obligations.SlopeNumeratorIsTheWeightedSum : Prop :=
  (∀ h : SampleRing, h.h0 = 0 → h.slope = 0) ∧
  (∀ h : SampleRing, h.h0 ≠ 0 →
    h.slope = -3 * (h.h0.toNat : Int) - 1 * (h.h1.toNat : Int) + 1 * (h.h2.toNat : Int) + 3 * (h.h3.toNat : Int) ∧
    slopeKelvin h.slope = -(3 / 10) * kelvinOfK160 (h.h0.setWidth 32) - (1 / 10) * kelvinOfK160 (h.h1.setWidth 32)
      + (1 / 10) * kelvinOfK160 (h.h2.setWidth 32) + (3 / 10) * kelvinOfK160 (h.h3.setWidth 32)) ∧
  (∀ h : SampleRing, h.slope.natAbs ≤ 524284) ∧ SampleRing.slope ⟨131071, 131071, 0, 0⟩ = -524284 ∧
  ∀ x0 x1 x2 x3 : Reg16, SampleRing.slope ⟨k160 x0, k160 x1, k160 x2, k160 x3⟩ =
    5 * (-3 * (dieCode x0).toInt - (dieCode x1).toInt + (dieCode x2).toInt + 3 * (dieCode x3).toInt)

/-- The corrected voltage fits its register, and in Volts it is the raw voltage plus slope times 2.96e-4 (R163; that the
correction is added is the spec's decision D10, log 11). -/
def Obligations.CorrectedVoltageFitsAndIsExact : Prop :=
  ∀ (h : SampleRing) (raw : Reg16),
    correctedVoltage h raw = 125 * raw.toInt + 148 * h.slope ∧ (correctedVoltage h raw).natAbs ≤ 81690032 ∧
    (BitVec.ofInt 32 (correctedVoltage h raw)).toInt = correctedVoltage h raw ∧
    voltsOfVq (.ofInt 32 (correctedVoltage h raw)) = voltsOfVq (vq raw) + slopeKelvin h.slope * (296 / 1000000)

/-- The window law (R168, an inference the spec draws from R161): after a series of four or more GETOBJTC on one ring, the
ring holds the last four samples in order of arrival, whatever it held before, and every other ring is as it was. -/
def Obligations.WindowHoldsTheLastFourSamples : Prop :=
  ∀ (s : State) (r : BitVec 3) (before : List (BitVec 6 × Answer × Answer)) (w x y z : BitVec 6 × Answer × Answer),
    (getobjtcSeries r (before ++ [w, x, y, z]) s).ring r =
      ⟨k160 w.2.1.word, k160 x.2.1.word, k160 y.2.1.word, k160 z.2.1.word⟩ ∧
    ∀ q, q ≠ r → (getobjtcSeries r (before ++ [w, x, y, z]) s).ring q = s.ring q

/-- On a ring that is not warmed up after the shift, GETOBJTC returns what GETOBJ would (R164, R253). -/
def Obligations.ColdRingGivesTheUncorrectedVoltage : Prop :=
  ∀ (id : BitVec 6) (r : BitVec 3) (s : State) (a b : Answer) (rest : List Answer),
    s.useq = 0 → s.answers = a :: b :: rest → (s.ring r).h1 = 0 →
    ∃ t u, exec (.getobjtc id r) s = .next t ∧ exec (.getobj id) s = .next u ∧
      t.status = u.status ∧ t.res0 = u.res0 ∧ t.res1 = u.res1 ∧ t.requests = u.requests ∧ t.answers = u.answers

/-- RINGRD, RINGWR, RINGCLR (R165, R166, R167; the host's access to the rings is the spec's decision D7): no transport
request, the response, and the one entry or ring; everything else is unchanged. -/
def Obligations.RingAccessCommands : Prop :=
  ∀ (r : BitVec 3) (idx : BitVec 2) (val : Sample) (s : State),
    exec (.ringrd r idx) s = .next { s with status := 0, res0 := ((s.ring r).get idx).setWidth 32, res1 := 0,
                                            rspValid := true, busy := false, useq := 0 } ∧
    exec (.ringwr r idx val) s = .next { s with status := 0, res0 := 0, res1 := 0, rspValid := true, busy := false,
                                                useq := 0, rings := s.rings.set r.toNat ((s.ring r).set idx val) } ∧
    exec (.ringclr r) s = .next { s with status := 0, res0 := 0, res1 := 0, rspValid := true, busy := false,
                                         useq := 0, rings := s.rings.set r.toNat ⟨0, 0, 0, 0⟩ }

/-- What RINGWR stored RINGRD returns, and every other entry of every ring reads as before (R165, R166, R25). -/
def Obligations.RingWriteThenReadReturnsTheValue : Prop :=
  ∀ (r q : BitVec 3) (i j : BitVec 2) (val : Sample) (s : State), ∃ t u v,
    exec (.ringwr r i val) s = .next t ∧ exec (.ringrd q j) t = .next u ∧ exec (.ringrd q j) s = .next v ∧
    u.res0 = if q = r ∧ j = i then val.setWidth 32 else v.res0

/-! ## CRC-8 -/

/-- Generic CRC-8 (R175): no byte leaves the initial value, and each further byte is XORed into the remainder and shifted
out in eight steps. -/
def Obligations.CrcEightIsTheBitwiseChecksum : Prop :=
  (∀ (bytes : List Byte) (poly init : Byte), crc8 bytes 0 poly init = init) ∧
  (∀ (bytes : List Byte) (n : Nat) (poly init : Byte) (h : n < bytes.length),
    crc8 bytes (n + 1) poly init =
      (fun rem => if rem.getLsbD 7 then (rem <<< 1) ^^^ poly else rem <<< 1)^[8] (crc8 bytes n poly init ^^^ bytes[n]))

/-- A pair followed by its own checksum has checksum 0, and any single flipped bit of a pair changes its checksum
(R179, an inference the spec draws from R175). -/
def Obligations.ChecksumDetectsEverySingleBitFlip : Prop :=
  ∀ x y : Byte, crc [x, y, crc [x, y] 2] 3 = 0 ∧
    ∀ k, k < 8 → crc [x ^^^ (1 <<< k), y] 2 ≠ crc [x, y] 2 ∧ crc [x, y ^^^ (1 <<< k)] 2 ≠ crc [x, y] 2

/-- CRC8 and CRCCHK (R177, R178; the commands are the spec's decision D20): no transport request; CRC8 answers the checksum
of the first LEN bytes, CRCCHK the checksum of the pair when it equals the transmitted byte, and −5 with zero results
when it does not. Everything else is unchanged. -/
def Obligations.CrcCommandsAnswerTheChecksum : Prop :=
  ∀ (len : BitVec 2) (b0 b1 b2 : Byte) (s : State),
    exec (.crc8 len b0 b1 b2) s = .next { s with
      status := 0, res0 := (crc8 ([b0, b1, b2].take len.toNat) len.toNat 0x31 0xFF).setWidth 32, res1 := 0,
      rspValid := true, busy := false, useq := 0 } ∧
    (crc [b0, b1] 2 = b2 → exec (.crcchk b0 b1 b2) s = .next { s with
      status := 0, res0 := b2.setWidth 32, res1 := 0, rspValid := true, busy := false, useq := 0 }) ∧
    (crc [b0, b1] 2 ≠ b2 → exec (.crcchk b0 b1 b2) s = .next { s with
      status := -5, res0 := 0, res1 := 0, rspValid := true, busy := false, useq := 0 })

/-! ## SHT31 -/

/-- SHTINIT (R186): open, then select 0x44; SESS_ERR and STATUS become −1 when the open fails (and no select is issued),
−2 when the select fails, 0 when both succeed, whatever SESS_ERR held. Everything else is unchanged. Which failure has
which code is the spec's decision D11 (log 11). -/
def Obligations.ShtinitRecordsItsOutcome : Prop :=
  ∀ s : State,
    (∀ a rest, s.useq = 0 → s.answers = a :: rest → a.ok = false →
      exec .shtinit s = .next { ended s (-1) 0 0 rest (s.requestsWith .devOpen) with sessErr := -1 }) ∧
    (∀ a b rest, s.useq = 0 → s.answers = a :: b :: rest → a.ok = true →
      exec .shtinit s = .next
        { ended s (if b.ok then 0 else -2) 0 0 rest (s.requestsWith .devOpen ++ [.devSelect 0x44]) with
          sessErr := if b.ok then 0 else -2 }) ∧
    (∀ a, s.useq = 0 → s.answers = [a] → a.ok = true →
      exec .shtinit s = .next
        (waitingOn s 1 (.devSelect 0x44) (s.requestsWith .devOpen ++ [.devSelect 0x44]))) ∧
    (∀ b rest, s.useq ≠ 0 → s.answers = b :: rest →
      exec .shtinit s = .next
        { ended s (if b.ok then 0 else -2) 0 0 rest (s.requestsWith (.devSelect 0x44)) with
          sessErr := if b.ok then 0 else -2 })

/-- The errors of `Measure()`, in the order of its tests (R187): a session that is not usable is echoed without a request;
a write count other than 2 gives −3 and no read; a read count other than 6 gives −4. SESS_ERR, the rings and everything
else are unchanged. That the bytes of a read with a wrong count go to FR is deduced (log 14), and so is that FR keeps them
after the response (log 19). -/
def Obligations.MeasurementErrorsComeInOrder : Prop :=
  ∀ (i : Instr) (s : State), i = .shttemp ∨ i = .shthum →
    (s.useq = 0 → s.port = none → s.sessErr ≠ 0 →
      exec i s = .next (ended s s.sessErr 0 0 s.answers s.requests)) ∧
    (∀ a rest, s.useq = 0 → s.sessErr = 0 → s.answers = a :: rest → a.cnt ≠ 2 →
      exec i s = .next (ended s (-3) 0 0 rest (s.requestsWith (.devWrite [0x2C, 0x06] 2)))) ∧
    (∀ a b rest, s.useq = 0 → s.sessErr = 0 → s.answers = a :: b :: rest → a.cnt = 2 → b.cnt ≠ 6 →
      exec i s = .next { ended s (-4) 0 0 rest (s.requestsWith (.devWrite [0x2C, 0x06] 2) ++ [.devRead 6]) with
                         fr := b.bytes }) ∧
    (∀ b rest, s.useq ≠ 0 → s.answers = b :: rest → b.cnt ≠ 6 →
      exec i s = .next { ended s (-4) 0 0 rest (s.requestsWith (.devRead 6)) with fr := b.bytes })

/-- SHTTEMP (R188) with a usable session, the exact counts, and a frame: the temperature pair alone is checked, a bad
checksum gives −5 and zero results, a good one `175 × raw − 2949075`. The frame is in FR, and that FR keeps it after the
response is deduced (log 19). Everything else is unchanged. -/
def Obligations.ShttempChecksAndDecodesItsPair : Prop :=
  ∀ (s : State) (b : Answer) (rest : List Answer) (reqs : List Request), b.cnt = 6 →
    ((∃ a, s.useq = 0 ∧ s.sessErr = 0 ∧ s.answers = a :: b :: rest ∧ a.cnt = 2 ∧
        reqs = s.requestsWith (.devWrite [0x2C, 0x06] 2) ++ [.devRead 6]) ∨
     (s.useq ≠ 0 ∧ s.answers = b :: rest ∧ reqs = s.requestsWith (.devRead 6))) →
    exec .shttemp s = .next { (if crc [b.bytes.b0, b.bytes.b1] 2 = b.bytes.b2 then
        ended s 0 (.ofInt 32 (175 * ((b.bytes.b0 ++ b.bytes.b1).toNat : Int) - 2949075)) 0 rest reqs
      else ended s (-5) 0 0 rest reqs) with fr := b.bytes }

/-- SHTHUM (R189) with a usable session, the exact counts, and a frame: the humidity pair alone is checked, a bad checksum
gives −5 and zero results, a good one `100 × raw`. The frame is in FR, and that FR keeps it after the response is deduced
(log 19). Everything else is unchanged. -/
def Obligations.ShthumChecksAndDecodesItsPair : Prop :=
  ∀ (s : State) (b : Answer) (rest : List Answer) (reqs : List Request), b.cnt = 6 →
    ((∃ a, s.useq = 0 ∧ s.sessErr = 0 ∧ s.answers = a :: b :: rest ∧ a.cnt = 2 ∧
        reqs = s.requestsWith (.devWrite [0x2C, 0x06] 2) ++ [.devRead 6]) ∨
     (s.useq ≠ 0 ∧ s.answers = b :: rest ∧ reqs = s.requestsWith (.devRead 6))) →
    exec .shthum s = .next { (if crc [b.bytes.b3, b.bytes.b4] 2 = b.bytes.b5 then
        ended s 0 (.ofInt 32 (100 * ((b.bytes.b3 ++ b.bytes.b4).toNat : Int))) 0 rest reqs
      else ended s (-5) 0 0 rest reqs) with fr := b.bytes }

/-- A frame whose temperature pair has one bit flipped against its checksum makes SHTTEMP answer −5, and SESS_ERR and every
ring stay as they were (R179, R188; vector V4). -/
def Obligations.FlippedTemperatureBitGivesChecksumError : Prop :=
  ∀ (s : State) (a b : Answer) (rest : List Answer) (x y : Byte) (k : Nat),
    s.useq = 0 → s.sessErr = 0 → s.answers = a :: b :: rest → a.cnt = 2 → b.cnt = 6 → k < 8 →
    b.bytes.b2 = crc [x, y] 2 →
    (b.bytes.b0 = x ^^^ (1 <<< k) ∧ b.bytes.b1 = y ∨ b.bytes.b0 = x ∧ b.bytes.b1 = y ^^^ (1 <<< k)) →
    ∃ t, exec .shttemp s = .next t ∧ t.status = -5 ∧ t.res0 = 0 ∧ t.res1 = 0 ∧ t.sessErr = s.sessErr ∧
      t.rings = s.rings

/-- SHTTEMP does not examine bytes 3 to 5 of its frame, nor SHTHUM bytes 0 to 2: with other bytes there only FR differs
(R73, R188, R189). -/
def Obligations.EachMeasurementReadsOnlyItsOwnPair : Prop :=
  ∀ (s : State) (a b b' : Answer) (rest : List Answer), s.useq = 0 → s.sessErr = 0 → s.answers = a :: b :: rest →
    a.cnt = 2 → b'.cnt = b.cnt →
    (b'.bytes.b0 = b.bytes.b0 → b'.bytes.b1 = b.bytes.b1 → b'.bytes.b2 = b.bytes.b2 →
      ∃ t f, exec .shttemp s = .next t ∧
        exec .shttemp { s with answers := a :: b' :: rest } = .next { t with fr := f }) ∧
    (b'.bytes.b3 = b.bytes.b3 → b'.bytes.b4 = b.bytes.b4 → b'.bytes.b5 = b.bytes.b5 →
      ∃ t f, exec .shthum s = .next t ∧
        exec .shthum { s with answers := a :: b' :: rest } = .next { t with fr := f })

/-- The SHT31 decode is exact (R188, R189, R190; the form of the results is the spec's decision D21): both numerators fit
32 bits, and over 65535 they are the document's `−45 + 175 × raw/65535` °C and `100 × raw/65535` %RH. -/
def Obligations.ShtDecodeIsExact : Prop :=
  ∀ raw : Reg16,
    (BitVec.ofInt 32 (tempNumerator raw)).toInt = 175 * (raw.toNat : Int) - 2949075 ∧
    ((BitVec.ofInt 32 (humNumerator raw)).toNat : Int) = 100 * (raw.toNat : Int) ∧
    (tempNumerator raw).natAbs ≤ 8519550 ∧ (humNumerator raw).natAbs ≤ 6553500 ∧
    celsiusOfSht (.ofInt 32 (tempNumerator raw)) = -45 + 175 * ((raw.toNat : ℚ) / 65535) ∧
    humidityOfSht (.ofInt 32 (humNumerator raw)) = 100 * ((raw.toNat : ℚ) / 65535)
end

