-- ==== Sys2Proof/Laws/Arith.lean ====
section
/-! SUPPORT. The exact integers behind the fixed-point results: an integer that fits a register is what the register
holds, and the die-temperature code in three forms. -/

namespace Sys2Proof.Machine

/-- An unsigned integer that fits `n` bits is what the register holds. -/
theorem toNat_ofInt_of_fits {n : Nat} {x : Int} (h0 : 0 ≤ x) (h1 : x < 2 ^ n) : ((BitVec.ofInt n x).toNat : Int) = x := by
  have hp : (0 : Int) < (2 ^ n : Nat) := by exact_mod_cast Nat.two_pow_pos n
  rw [BitVec.toNat_ofInt, Int.toNat_of_nonneg (Int.emod_nonneg _ hp.ne')]
  exact Int.emod_eq_of_lt h0 (by exact_mod_cast h1)

/-- A signed integer that fits `n` bits is what the register holds. -/
theorem toInt_ofInt_of_fits {n : Nat} {x : Int} (h0 : -(2 ^ n : Nat) ≤ 2 * x) (h1 : 2 * x < (2 ^ n : Nat)) :
    (BitVec.ofInt n x).toInt = x := by
  rw [BitVec.toInt_ofInt]
  apply Int.bmod_eq_of_le <;> omega

/-- The die-temperature code has the bits 15:2 of the register value (R150). -/
theorem dieCode_extract (raw : Reg16) : dieCode raw = raw.extractLsb' 2 14 := by
  apply BitVec.eq_of_getLsbD_eq
  intro k hk
  simp only [dieCode, BitVec.getLsbD_setWidth, BitVec.getLsbD_extractLsb', BitVec.getLsbD_sshiftRight, hk, decide_true,
    Bool.true_and]
  simp [show ¬ 16 ≤ k by omega, show 2 + k < 16 by omega]

end Sys2Proof.Machine
end

