-- ==== Sys2Proof/Laws/Codec.lean ====
section
/-! SUPPORT. The laws of fields and of the opcode map that codec proofs cite: a placed value is read back by its own
field and by no other, a mask acts on a placed value through its own slice, and a row that holds decides the decoding. -/

namespace Sys2Proof

/-! ## Placed values -/

theorem place_getLsbD {n : Nat} (lo : Nat) (v : BitVec n) (k : Nat) :
    (place lo v).getLsbD k = (decide (k < 48) && !decide (k < lo) && v.getLsbD (k - lo)) := by
  by_cases h : k < 48 <;> by_cases h2 : k < lo <;> simp [place, h, h2]

/-- A field reads back the value placed at it. -/
theorem extract_place_same {n : Nat} (lo : Nat) (v : BitVec n) (h : lo + n ≤ 48) : (place lo v).extractLsb' lo n = v := by
  apply BitVec.eq_of_getLsbD_eq
  intro k hk
  simp only [BitVec.getLsbD_extractLsb', place_getLsbD, hk, decide_true, Bool.true_and]
  simp [show lo + k < 48 by omega]

/-- A field that does not overlap a placed value reads 0 of it. -/
theorem extract_place_disjoint {n : Nat} (lo start len : Nat) (v : BitVec n) (h : lo + n ≤ start ∨ start + len ≤ lo) :
    (place lo v).extractLsb' start len = 0#len := by
  apply BitVec.eq_of_getLsbD_eq
  intro k hk
  simp only [BitVec.getLsbD_extractLsb', place_getLsbD, hk, decide_true, Bool.true_and, BitVec.getLsbD_zero]
  rcases h with h | h
  · simp [BitVec.getLsbD_of_ge v (start + k - lo) (by omega)]
  · simp [show start + k < lo by omega]

/-- A mask acts on a placed value through the slice of the mask at that place. -/
theorem place_and_mask {n : Nat} (lo : Nat) (v : BitVec n) (m : CmdWord) :
    place lo v &&& m = place lo (v &&& m.extractLsb' lo n) := by
  apply BitVec.eq_of_getLsbD_eq
  intro k hk
  simp only [BitVec.getLsbD_and, place_getLsbD, BitVec.getLsbD_extractLsb', hk, decide_true, Bool.true_and]
  by_cases h : k < lo
  · simp [h]
  · by_cases h2 : k - lo < n
    · simp [h, h2, show lo + (k - lo) = k by omega]
    · simp [BitVec.getLsbD_of_ge v (k - lo) (by omega)]

/-- A mask distributes over the fields of a word. -/
theorem or_and_mask (a b m : CmdWord) : (a ||| b) &&& m = (a &&& m) ||| (b &&& m) := by
  apply BitVec.eq_of_getLsbD_eq
  intro k _
  simp only [BitVec.getLsbD_and, BitVec.getLsbD_or, Bool.and_or_distrib_right]

theorem place_zero (n lo : Nat) : place lo (0#n) = 0#48 := by simp [place]

/-! ## Rows -/

theorem OpcodeRow.holds_iff (r : OpcodeRow) (w : CmdWord) : r.holds w = true ↔ w &&& r.mask = r.bits := by
  simp [OpcodeRow.holds]

/-- Two rows whose required bits differ somewhere both fix it share no word. -/
theorem OpcodeRow.exclusive_of {r q : OpcodeRow} (h : r.mask &&& q.mask &&& (r.bits ^^^ q.bits) ≠ 0#48) (w : CmdWord) :
    ¬(w &&& r.mask = r.bits ∧ w &&& q.mask = q.bits) := by
  rintro ⟨h1, h2⟩
  refine h (BitVec.eq_of_getLsbD_eq fun k hk => ?_)
  rw [← h1, ← h2]
  simp only [BitVec.getLsbD_and, BitVec.getLsbD_xor, BitVec.getLsbD_zero]
  cases w.getLsbD k <;> cases r.mask.getLsbD k <;> cases q.mask.getLsbD k <;> rfl

/-- In a list of rows that exclude each other, the row that holds is the row that is found. -/
theorem find_row {rows : List OpcodeRow} {r : OpcodeRow} {w : CmdWord}
    (hp : rows.Pairwise (fun r q => ¬(r.holds w = true ∧ q.holds w = true))) (hm : r ∈ rows)
    (hw : r.holds w = true) : rows.find? (fun r => r.holds w) = some r := by
  induction rows with
  | nil => cases hm
  | cons q qs ih =>
    rw [List.pairwise_cons] at hp
    rcases List.mem_cons.1 hm with rfl | hm
    · simp [hw]
    · have hq : q.holds w = false := Bool.eq_false_iff.2 fun hq => hp.1 r hm ⟨hq, hw⟩
      simp [hq, ih hp.2 hm]

theorem tmp006_mem (n : Nat) (h : n < opcodeRowsTmp006.length) : opcodeRowsTmp006[n] ∈ opcodeMap :=
  List.mem_append_left _ (List.mem_append_left _ (List.getElem_mem h))

theorem ring_mem (n : Nat) (h : n < opcodeRowsRing.length) : opcodeRowsRing[n] ∈ opcodeMap :=
  List.mem_append_left _ (List.mem_append_right _ (List.getElem_mem h))

theorem sht31_mem (n : Nat) (h : n < opcodeRowsSht31.length) : opcodeRowsSht31[n] ∈ opcodeMap :=
  List.mem_append_right _ (List.getElem_mem h)

/-- A decoded command comes from a row that holds. -/
theorem row_of_decode {w : CmdWord} {i : Instr} (h : decode w = .command i) :
    ∃ r ∈ opcodeMap, w &&& r.mask = r.bits ∧ r.build w = i := by
  unfold decode at h
  split at h
  · rename_i r hr
    exact ⟨r, List.mem_of_find?_eq_some hr, (r.holds_iff w).1 (by simpa using List.find?_some hr), by simpa using h⟩
  · cases h

end Sys2Proof
end

