-- ==== Sys2Proof/Laws/State.lean ====
section
/-! SUPPORT. One lemma per field per update, each true by unfolding once, so that no later proof unfolds a record
update. -/

namespace Sys2Proof.Machine

@[simp] theorem deliver_status (code : Code) (r0 r1 : BitVec 32) (s : State) :
    (deliver code r0 r1 s).status = code := rfl
@[simp] theorem deliver_res0 (code : Code) (r0 r1 : BitVec 32) (s : State) :
    (deliver code r0 r1 s).res0 = r0 := rfl
@[simp] theorem deliver_res1 (code : Code) (r0 r1 : BitVec 32) (s : State) :
    (deliver code r0 r1 s).res1 = r1 := rfl
@[simp] theorem deliver_sessErr (code : Code) (r0 r1 : BitVec 32) (s : State) :
    (deliver code r0 r1 s).sessErr = s.sessErr := rfl
@[simp] theorem deliver_rings (code : Code) (r0 r1 : BitVec 32) (s : State) :
    (deliver code r0 r1 s).rings = s.rings := rfl
@[simp] theorem deliver_busy (code : Code) (r0 r1 : BitVec 32) (s : State) :
    (deliver code r0 r1 s).busy = false := rfl
@[simp] theorem deliver_cur (code : Code) (r0 r1 : BitVec 32) (s : State) :
    (deliver code r0 r1 s).cur = s.cur := rfl
@[simp] theorem deliver_useq (code : Code) (r0 r1 : BitVec 32) (s : State) :
    (deliver code r0 r1 s).useq = 0 := rfl
@[simp] theorem deliver_t0 (code : Code) (r0 r1 : BitVec 32) (s : State) :
    (deliver code r0 r1 s).t0 = s.t0 := rfl
@[simp] theorem deliver_t1 (code : Code) (r0 r1 : BitVec 32) (s : State) :
    (deliver code r0 r1 s).t1 = s.t1 := rfl
@[simp] theorem deliver_fr (code : Code) (r0 r1 : BitVec 32) (s : State) :
    (deliver code r0 r1 s).fr = s.fr := rfl
@[simp] theorem deliver_rst (code : Code) (r0 r1 : BitVec 32) (s : State) :
    (deliver code r0 r1 s).rst = s.rst := rfl
@[simp] theorem deliver_cmds (code : Code) (r0 r1 : BitVec 32) (s : State) :
    (deliver code r0 r1 s).cmds = s.cmds := rfl
@[simp] theorem deliver_answers (code : Code) (r0 r1 : BitVec 32) (s : State) :
    (deliver code r0 r1 s).answers = s.answers := rfl
@[simp] theorem deliver_rspValid (code : Code) (r0 r1 : BitVec 32) (s : State) :
    (deliver code r0 r1 s).rspValid = true := rfl
@[simp] theorem deliver_port (code : Code) (r0 r1 : BitVec 32) (s : State) :
    (deliver code r0 r1 s).port = s.port := rfl
@[simp] theorem deliver_requests (code : Code) (r0 r1 : BitVec 32) (s : State) :
    (deliver code r0 r1 s).requests = s.requests := rfl
@[simp] theorem deliver_draws (code : Code) (r0 r1 : BitVec 32) (s : State) :
    (deliver code r0 r1 s).draws = s.draws := rfl

@[simp] theorem respond_status (r0 r1 : BitVec 32) (s : State) :
    (respond r0 r1 s).status = codeOk := rfl
@[simp] theorem respond_res0 (r0 r1 : BitVec 32) (s : State) :
    (respond r0 r1 s).res0 = r0 := rfl
@[simp] theorem respond_res1 (r0 r1 : BitVec 32) (s : State) :
    (respond r0 r1 s).res1 = r1 := rfl
@[simp] theorem respond_sessErr (r0 r1 : BitVec 32) (s : State) :
    (respond r0 r1 s).sessErr = s.sessErr := rfl
@[simp] theorem respond_rings (r0 r1 : BitVec 32) (s : State) :
    (respond r0 r1 s).rings = s.rings := rfl
@[simp] theorem respond_busy (r0 r1 : BitVec 32) (s : State) :
    (respond r0 r1 s).busy = false := rfl
@[simp] theorem respond_cur (r0 r1 : BitVec 32) (s : State) :
    (respond r0 r1 s).cur = s.cur := rfl
@[simp] theorem respond_useq (r0 r1 : BitVec 32) (s : State) :
    (respond r0 r1 s).useq = 0 := rfl
@[simp] theorem respond_t0 (r0 r1 : BitVec 32) (s : State) :
    (respond r0 r1 s).t0 = s.t0 := rfl
@[simp] theorem respond_t1 (r0 r1 : BitVec 32) (s : State) :
    (respond r0 r1 s).t1 = s.t1 := rfl
@[simp] theorem respond_fr (r0 r1 : BitVec 32) (s : State) :
    (respond r0 r1 s).fr = s.fr := rfl
@[simp] theorem respond_rst (r0 r1 : BitVec 32) (s : State) :
    (respond r0 r1 s).rst = s.rst := rfl
@[simp] theorem respond_cmds (r0 r1 : BitVec 32) (s : State) :
    (respond r0 r1 s).cmds = s.cmds := rfl
@[simp] theorem respond_answers (r0 r1 : BitVec 32) (s : State) :
    (respond r0 r1 s).answers = s.answers := rfl
@[simp] theorem respond_rspValid (r0 r1 : BitVec 32) (s : State) :
    (respond r0 r1 s).rspValid = true := rfl
@[simp] theorem respond_port (r0 r1 : BitVec 32) (s : State) :
    (respond r0 r1 s).port = s.port := rfl
@[simp] theorem respond_requests (r0 r1 : BitVec 32) (s : State) :
    (respond r0 r1 s).requests = s.requests := rfl
@[simp] theorem respond_draws (r0 r1 : BitVec 32) (s : State) :
    (respond r0 r1 s).draws = s.draws := rfl

@[simp] theorem raiseE_status (code : Code) (s : State) :
    (raiseE code s).status = code := rfl
@[simp] theorem raiseE_res0 (code : Code) (s : State) :
    (raiseE code s).res0 = 0 := rfl
@[simp] theorem raiseE_res1 (code : Code) (s : State) :
    (raiseE code s).res1 = 0 := rfl
@[simp] theorem raiseE_sessErr (code : Code) (s : State) :
    (raiseE code s).sessErr = s.sessErr := rfl
@[simp] theorem raiseE_rings (code : Code) (s : State) :
    (raiseE code s).rings = s.rings := rfl
@[simp] theorem raiseE_busy (code : Code) (s : State) :
    (raiseE code s).busy = false := rfl
@[simp] theorem raiseE_cur (code : Code) (s : State) :
    (raiseE code s).cur = s.cur := rfl
@[simp] theorem raiseE_useq (code : Code) (s : State) :
    (raiseE code s).useq = 0 := rfl
@[simp] theorem raiseE_t0 (code : Code) (s : State) :
    (raiseE code s).t0 = s.t0 := rfl
@[simp] theorem raiseE_t1 (code : Code) (s : State) :
    (raiseE code s).t1 = s.t1 := rfl
@[simp] theorem raiseE_fr (code : Code) (s : State) :
    (raiseE code s).fr = s.fr := rfl
@[simp] theorem raiseE_rst (code : Code) (s : State) :
    (raiseE code s).rst = s.rst := rfl
@[simp] theorem raiseE_cmds (code : Code) (s : State) :
    (raiseE code s).cmds = s.cmds := rfl
@[simp] theorem raiseE_answers (code : Code) (s : State) :
    (raiseE code s).answers = s.answers := rfl
@[simp] theorem raiseE_rspValid (code : Code) (s : State) :
    (raiseE code s).rspValid = true := rfl
@[simp] theorem raiseE_port (code : Code) (s : State) :
    (raiseE code s).port = s.port := rfl
@[simp] theorem raiseE_requests (code : Code) (s : State) :
    (raiseE code s).requests = s.requests := rfl
@[simp] theorem raiseE_draws (code : Code) (s : State) :
    (raiseE code s).draws = s.draws := rfl

@[simp] theorem accept_status (w : CmdWord) (rest : List CmdWord) (s : State) :
    (accept w rest s).status = s.status := rfl
@[simp] theorem accept_res0 (w : CmdWord) (rest : List CmdWord) (s : State) :
    (accept w rest s).res0 = s.res0 := rfl
@[simp] theorem accept_res1 (w : CmdWord) (rest : List CmdWord) (s : State) :
    (accept w rest s).res1 = s.res1 := rfl
@[simp] theorem accept_sessErr (w : CmdWord) (rest : List CmdWord) (s : State) :
    (accept w rest s).sessErr = s.sessErr := rfl
@[simp] theorem accept_rings (w : CmdWord) (rest : List CmdWord) (s : State) :
    (accept w rest s).rings = s.rings := rfl
@[simp] theorem accept_busy (w : CmdWord) (rest : List CmdWord) (s : State) :
    (accept w rest s).busy = true := rfl
@[simp] theorem accept_cur (w : CmdWord) (rest : List CmdWord) (s : State) :
    (accept w rest s).cur = w := rfl
@[simp] theorem accept_useq (w : CmdWord) (rest : List CmdWord) (s : State) :
    (accept w rest s).useq = 0 := rfl
@[simp] theorem accept_t0 (w : CmdWord) (rest : List CmdWord) (s : State) :
    (accept w rest s).t0 = s.t0 := rfl
@[simp] theorem accept_t1 (w : CmdWord) (rest : List CmdWord) (s : State) :
    (accept w rest s).t1 = s.t1 := rfl
@[simp] theorem accept_fr (w : CmdWord) (rest : List CmdWord) (s : State) :
    (accept w rest s).fr = s.fr := rfl
@[simp] theorem accept_rst (w : CmdWord) (rest : List CmdWord) (s : State) :
    (accept w rest s).rst = s.rst := rfl
@[simp] theorem accept_cmds (w : CmdWord) (rest : List CmdWord) (s : State) :
    (accept w rest s).cmds = rest := rfl
@[simp] theorem accept_answers (w : CmdWord) (rest : List CmdWord) (s : State) :
    (accept w rest s).answers = s.answers := rfl
@[simp] theorem accept_rspValid (w : CmdWord) (rest : List CmdWord) (s : State) :
    (accept w rest s).rspValid = s.rspValid := rfl
@[simp] theorem accept_port (w : CmdWord) (rest : List CmdWord) (s : State) :
    (accept w rest s).port = none := rfl
@[simp] theorem accept_requests (w : CmdWord) (rest : List CmdWord) (s : State) :
    (accept w rest s).requests = s.requests := rfl
@[simp] theorem accept_draws (w : CmdWord) (rest : List CmdWord) (s : State) :
    (accept w rest s).draws = s.draws := rfl

@[simp] theorem dropRspValid_status (s : State) :
    (dropRspValid s).status = s.status := rfl
@[simp] theorem dropRspValid_res0 (s : State) :
    (dropRspValid s).res0 = s.res0 := rfl
@[simp] theorem dropRspValid_res1 (s : State) :
    (dropRspValid s).res1 = s.res1 := rfl
@[simp] theorem dropRspValid_sessErr (s : State) :
    (dropRspValid s).sessErr = s.sessErr := rfl
@[simp] theorem dropRspValid_rings (s : State) :
    (dropRspValid s).rings = s.rings := rfl
@[simp] theorem dropRspValid_busy (s : State) :
    (dropRspValid s).busy = s.busy := rfl
@[simp] theorem dropRspValid_cur (s : State) :
    (dropRspValid s).cur = s.cur := rfl
@[simp] theorem dropRspValid_useq (s : State) :
    (dropRspValid s).useq = s.useq := rfl
@[simp] theorem dropRspValid_t0 (s : State) :
    (dropRspValid s).t0 = s.t0 := rfl
@[simp] theorem dropRspValid_t1 (s : State) :
    (dropRspValid s).t1 = s.t1 := rfl
@[simp] theorem dropRspValid_fr (s : State) :
    (dropRspValid s).fr = s.fr := rfl
@[simp] theorem dropRspValid_rst (s : State) :
    (dropRspValid s).rst = s.rst := rfl
@[simp] theorem dropRspValid_cmds (s : State) :
    (dropRspValid s).cmds = s.cmds := rfl
@[simp] theorem dropRspValid_answers (s : State) :
    (dropRspValid s).answers = s.answers := rfl
@[simp] theorem dropRspValid_rspValid (s : State) :
    (dropRspValid s).rspValid = false := rfl
@[simp] theorem dropRspValid_port (s : State) :
    (dropRspValid s).port = s.port := rfl
@[simp] theorem dropRspValid_requests (s : State) :
    (dropRspValid s).requests = s.requests := rfl
@[simp] theorem dropRspValid_draws (s : State) :
    (dropRspValid s).draws = s.draws := rfl

@[simp] theorem takeAnswer_status (rest : List Answer) (s : State) :
    (takeAnswer rest s).status = s.status := rfl
@[simp] theorem takeAnswer_res0 (rest : List Answer) (s : State) :
    (takeAnswer rest s).res0 = s.res0 := rfl
@[simp] theorem takeAnswer_res1 (rest : List Answer) (s : State) :
    (takeAnswer rest s).res1 = s.res1 := rfl
@[simp] theorem takeAnswer_sessErr (rest : List Answer) (s : State) :
    (takeAnswer rest s).sessErr = s.sessErr := rfl
@[simp] theorem takeAnswer_rings (rest : List Answer) (s : State) :
    (takeAnswer rest s).rings = s.rings := rfl
@[simp] theorem takeAnswer_busy (rest : List Answer) (s : State) :
    (takeAnswer rest s).busy = s.busy := rfl
@[simp] theorem takeAnswer_cur (rest : List Answer) (s : State) :
    (takeAnswer rest s).cur = s.cur := rfl
@[simp] theorem takeAnswer_useq (rest : List Answer) (s : State) :
    (takeAnswer rest s).useq = s.useq + 1 := rfl
@[simp] theorem takeAnswer_t0 (rest : List Answer) (s : State) :
    (takeAnswer rest s).t0 = s.t0 := rfl
@[simp] theorem takeAnswer_t1 (rest : List Answer) (s : State) :
    (takeAnswer rest s).t1 = s.t1 := rfl
@[simp] theorem takeAnswer_fr (rest : List Answer) (s : State) :
    (takeAnswer rest s).fr = s.fr := rfl
@[simp] theorem takeAnswer_rst (rest : List Answer) (s : State) :
    (takeAnswer rest s).rst = s.rst := rfl
@[simp] theorem takeAnswer_cmds (rest : List Answer) (s : State) :
    (takeAnswer rest s).cmds = s.cmds := rfl
@[simp] theorem takeAnswer_answers (rest : List Answer) (s : State) :
    (takeAnswer rest s).answers = rest := rfl
@[simp] theorem takeAnswer_rspValid (rest : List Answer) (s : State) :
    (takeAnswer rest s).rspValid = s.rspValid := rfl
@[simp] theorem takeAnswer_port (rest : List Answer) (s : State) :
    (takeAnswer rest s).port = none := rfl
@[simp] theorem takeAnswer_requests (rest : List Answer) (s : State) :
    (takeAnswer rest s).requests = s.requests := rfl
@[simp] theorem takeAnswer_draws (rest : List Answer) (s : State) :
    (takeAnswer rest s).draws = s.draws := rfl

@[simp] theorem setRing_status (r : BitVec 3) (h : SampleRing) (s : State) :
    (State.setRing r h s).status = s.status := rfl
@[simp] theorem setRing_res0 (r : BitVec 3) (h : SampleRing) (s : State) :
    (State.setRing r h s).res0 = s.res0 := rfl
@[simp] theorem setRing_res1 (r : BitVec 3) (h : SampleRing) (s : State) :
    (State.setRing r h s).res1 = s.res1 := rfl
@[simp] theorem setRing_sessErr (r : BitVec 3) (h : SampleRing) (s : State) :
    (State.setRing r h s).sessErr = s.sessErr := rfl
@[simp] theorem setRing_rings (r : BitVec 3) (h : SampleRing) (s : State) :
    (State.setRing r h s).rings = s.rings.set r.toNat h := rfl
@[simp] theorem setRing_busy (r : BitVec 3) (h : SampleRing) (s : State) :
    (State.setRing r h s).busy = s.busy := rfl
@[simp] theorem setRing_cur (r : BitVec 3) (h : SampleRing) (s : State) :
    (State.setRing r h s).cur = s.cur := rfl
@[simp] theorem setRing_useq (r : BitVec 3) (h : SampleRing) (s : State) :
    (State.setRing r h s).useq = s.useq := rfl
@[simp] theorem setRing_t0 (r : BitVec 3) (h : SampleRing) (s : State) :
    (State.setRing r h s).t0 = s.t0 := rfl
@[simp] theorem setRing_t1 (r : BitVec 3) (h : SampleRing) (s : State) :
    (State.setRing r h s).t1 = s.t1 := rfl
@[simp] theorem setRing_fr (r : BitVec 3) (h : SampleRing) (s : State) :
    (State.setRing r h s).fr = s.fr := rfl
@[simp] theorem setRing_rst (r : BitVec 3) (h : SampleRing) (s : State) :
    (State.setRing r h s).rst = s.rst := rfl
@[simp] theorem setRing_cmds (r : BitVec 3) (h : SampleRing) (s : State) :
    (State.setRing r h s).cmds = s.cmds := rfl
@[simp] theorem setRing_answers (r : BitVec 3) (h : SampleRing) (s : State) :
    (State.setRing r h s).answers = s.answers := rfl
@[simp] theorem setRing_rspValid (r : BitVec 3) (h : SampleRing) (s : State) :
    (State.setRing r h s).rspValid = s.rspValid := rfl
@[simp] theorem setRing_port (r : BitVec 3) (h : SampleRing) (s : State) :
    (State.setRing r h s).port = s.port := rfl
@[simp] theorem setRing_requests (r : BitVec 3) (h : SampleRing) (s : State) :
    (State.setRing r h s).requests = s.requests := rfl
@[simp] theorem setRing_draws (r : BitVec 3) (h : SampleRing) (s : State) :
    (State.setRing r h s).draws = s.draws := rfl

@[simp] theorem ended_status (s : State) (code : Code) (r0 r1 : BitVec 32) (rest : List Answer) (reqs : List Request) :
    (ended s code r0 r1 rest reqs).status = code := rfl
@[simp] theorem ended_res0 (s : State) (code : Code) (r0 r1 : BitVec 32) (rest : List Answer) (reqs : List Request) :
    (ended s code r0 r1 rest reqs).res0 = r0 := rfl
@[simp] theorem ended_res1 (s : State) (code : Code) (r0 r1 : BitVec 32) (rest : List Answer) (reqs : List Request) :
    (ended s code r0 r1 rest reqs).res1 = r1 := rfl
@[simp] theorem ended_sessErr (s : State) (code : Code) (r0 r1 : BitVec 32) (rest : List Answer) (reqs : List Request) :
    (ended s code r0 r1 rest reqs).sessErr = s.sessErr := rfl
@[simp] theorem ended_rings (s : State) (code : Code) (r0 r1 : BitVec 32) (rest : List Answer) (reqs : List Request) :
    (ended s code r0 r1 rest reqs).rings = s.rings := rfl
@[simp] theorem ended_busy (s : State) (code : Code) (r0 r1 : BitVec 32) (rest : List Answer) (reqs : List Request) :
    (ended s code r0 r1 rest reqs).busy = false := rfl
@[simp] theorem ended_cur (s : State) (code : Code) (r0 r1 : BitVec 32) (rest : List Answer) (reqs : List Request) :
    (ended s code r0 r1 rest reqs).cur = s.cur := rfl
@[simp] theorem ended_useq (s : State) (code : Code) (r0 r1 : BitVec 32) (rest : List Answer) (reqs : List Request) :
    (ended s code r0 r1 rest reqs).useq = 0 := rfl
@[simp] theorem ended_t0 (s : State) (code : Code) (r0 r1 : BitVec 32) (rest : List Answer) (reqs : List Request) :
    (ended s code r0 r1 rest reqs).t0 = s.t0 := rfl
@[simp] theorem ended_t1 (s : State) (code : Code) (r0 r1 : BitVec 32) (rest : List Answer) (reqs : List Request) :
    (ended s code r0 r1 rest reqs).t1 = s.t1 := rfl
@[simp] theorem ended_fr (s : State) (code : Code) (r0 r1 : BitVec 32) (rest : List Answer) (reqs : List Request) :
    (ended s code r0 r1 rest reqs).fr = s.fr := rfl
@[simp] theorem ended_rst (s : State) (code : Code) (r0 r1 : BitVec 32) (rest : List Answer) (reqs : List Request) :
    (ended s code r0 r1 rest reqs).rst = s.rst := rfl
@[simp] theorem ended_cmds (s : State) (code : Code) (r0 r1 : BitVec 32) (rest : List Answer) (reqs : List Request) :
    (ended s code r0 r1 rest reqs).cmds = s.cmds := rfl
@[simp] theorem ended_answers (s : State) (code : Code) (r0 r1 : BitVec 32) (rest : List Answer) (reqs : List Request) :
    (ended s code r0 r1 rest reqs).answers = rest := rfl
@[simp] theorem ended_rspValid (s : State) (code : Code) (r0 r1 : BitVec 32) (rest : List Answer) (reqs : List Request) :
    (ended s code r0 r1 rest reqs).rspValid = true := rfl
@[simp] theorem ended_port (s : State) (code : Code) (r0 r1 : BitVec 32) (rest : List Answer) (reqs : List Request) :
    (ended s code r0 r1 rest reqs).port = none := rfl
@[simp] theorem ended_requests (s : State) (code : Code) (r0 r1 : BitVec 32) (rest : List Answer) (reqs : List Request) :
    (ended s code r0 r1 rest reqs).requests = reqs := rfl
@[simp] theorem ended_draws (s : State) (code : Code) (r0 r1 : BitVec 32) (rest : List Answer) (reqs : List Request) :
    (ended s code r0 r1 rest reqs).draws = s.draws := rfl

@[simp] theorem applyReset_status (s : State) :
    (applyReset s).status = 0 := rfl
@[simp] theorem applyReset_res0 (s : State) :
    (applyReset s).res0 = 0 := rfl
@[simp] theorem applyReset_res1 (s : State) :
    (applyReset s).res1 = 0 := rfl
@[simp] theorem applyReset_sessErr (s : State) :
    (applyReset s).sessErr = eOpen := rfl
@[simp] theorem applyReset_rings (s : State) :
    (applyReset s).rings = Vector.replicate 8 SampleRing.zero := rfl
@[simp] theorem applyReset_busy (s : State) :
    (applyReset s).busy = false := rfl
@[simp] theorem applyReset_cur (s : State) :
    (applyReset s).cur = Config.unspecifiedCur s.draws := rfl
@[simp] theorem applyReset_useq (s : State) :
    (applyReset s).useq = 0 := rfl
@[simp] theorem applyReset_t0 (s : State) :
    (applyReset s).t0 = Config.unspecifiedT0 s.draws := rfl
@[simp] theorem applyReset_t1 (s : State) :
    (applyReset s).t1 = Config.unspecifiedT1 s.draws := rfl
@[simp] theorem applyReset_rst (s : State) :
    (applyReset s).rst = s.rst := rfl
@[simp] theorem applyReset_cmds (s : State) :
    (applyReset s).cmds = s.cmds := rfl
@[simp] theorem applyReset_answers (s : State) :
    (applyReset s).answers = s.answers := rfl
@[simp] theorem applyReset_rspValid (s : State) :
    (applyReset s).rspValid = false := rfl
@[simp] theorem applyReset_port (s : State) :
    (applyReset s).port = none := rfl
@[simp] theorem applyReset_requests (s : State) :
    (applyReset s).requests = s.requests := rfl
@[simp] theorem applyReset_draws (s : State) :
    (applyReset s).draws = s.draws + 1 := rfl

@[simp] theorem issue_status (r : Request) (s : State) : (issue r s).status = s.status := by
  unfold issue; split <;> rfl
@[simp] theorem issue_res0 (r : Request) (s : State) : (issue r s).res0 = s.res0 := by
  unfold issue; split <;> rfl
@[simp] theorem issue_res1 (r : Request) (s : State) : (issue r s).res1 = s.res1 := by
  unfold issue; split <;> rfl
@[simp] theorem issue_sessErr (r : Request) (s : State) : (issue r s).sessErr = s.sessErr := by
  unfold issue; split <;> rfl
@[simp] theorem issue_rings (r : Request) (s : State) : (issue r s).rings = s.rings := by
  unfold issue; split <;> rfl
@[simp] theorem issue_busy (r : Request) (s : State) : (issue r s).busy = s.busy := by
  unfold issue; split <;> rfl
@[simp] theorem issue_cur (r : Request) (s : State) : (issue r s).cur = s.cur := by
  unfold issue; split <;> rfl
@[simp] theorem issue_useq (r : Request) (s : State) : (issue r s).useq = s.useq := by
  unfold issue; split <;> rfl
@[simp] theorem issue_t0 (r : Request) (s : State) : (issue r s).t0 = s.t0 := by
  unfold issue; split <;> rfl
@[simp] theorem issue_t1 (r : Request) (s : State) : (issue r s).t1 = s.t1 := by
  unfold issue; split <;> rfl
@[simp] theorem issue_fr (r : Request) (s : State) : (issue r s).fr = s.fr := by
  unfold issue; split <;> rfl
@[simp] theorem issue_rst (r : Request) (s : State) : (issue r s).rst = s.rst := by
  unfold issue; split <;> rfl
@[simp] theorem issue_cmds (r : Request) (s : State) : (issue r s).cmds = s.cmds := by
  unfold issue; split <;> rfl
@[simp] theorem issue_answers (r : Request) (s : State) : (issue r s).answers = s.answers := by
  unfold issue; split <;> rfl
@[simp] theorem issue_rspValid (r : Request) (s : State) : (issue r s).rspValid = s.rspValid := by
  unfold issue; split <;> rfl
@[simp] theorem issue_draws (r : Request) (s : State) : (issue r s).draws = s.draws := by
  unfold issue; split <;> rfl
@[simp] theorem issue_port (r : Request) (s : State) : (issue r s).port = some (s.port.getD r) := by
  unfold issue; split
  · simp [*]
  · cases h : s.port <;> simp_all
@[simp] theorem issue_requests (r : Request) (s : State) : (issue r s).requests = s.requestsWith r := by
  unfold issue State.requestsWith; split <;> rfl

/-! ## Rings -/

@[simp] theorem ring_setRing_same (r : BitVec 3) (h : SampleRing) (s : State) : (State.setRing r h s).ring r = h := by
  simp [State.ring, State.setRing]

theorem ring_setRing_other {q r : BitVec 3} (h : SampleRing) (s : State) (hne : q ≠ r) :
    (State.setRing r h s).ring q = s.ring q := by
  have hn : ¬ r.toNat = q.toNat := fun e => hne (BitVec.eq_of_toNat_eq e.symm)
  simp [State.ring, State.setRing, hn]

/-- A ring depends on the field `rings` alone. -/
theorem ring_congr {s s' : State} (h : s'.rings = s.rings) (r : BitVec 3) : s'.ring r = s.ring r := by
  simp [State.ring, h]

/-! No operation but `setRing` and reset touches a ring. -/

@[simp] theorem deliver_ring (code : Code) (r0 r1 : BitVec 32) (s : State) (r : BitVec 3) :
    (deliver code r0 r1 s).ring r = s.ring r := rfl
@[simp] theorem respond_ring (r0 r1 : BitVec 32) (s : State) (r : BitVec 3) :
    (respond r0 r1 s).ring r = s.ring r := rfl
@[simp] theorem raiseE_ring (code : Code) (s : State) (r : BitVec 3) :
    (raiseE code s).ring r = s.ring r := rfl
@[simp] theorem accept_ring (w : CmdWord) (rest : List CmdWord) (s : State) (r : BitVec 3) :
    (accept w rest s).ring r = s.ring r := rfl
@[simp] theorem dropRspValid_ring (s : State) (r : BitVec 3) :
    (dropRspValid s).ring r = s.ring r := rfl
@[simp] theorem takeAnswer_ring (rest : List Answer) (s : State) (r : BitVec 3) :
    (takeAnswer rest s).ring r = s.ring r := rfl
@[simp] theorem ended_ring (s : State) (code : Code) (r0 r1 : BitVec 32) (rest : List Answer) (reqs : List Request) (r : BitVec 3) :
    (ended s code r0 r1 rest reqs).ring r = s.ring r := rfl
@[simp] theorem issue_ring (q : Request) (s : State) (r : BitVec 3) : (issue q s).ring r = s.ring r :=
  ring_congr (issue_rings q s) r

/-- The four values of an index. -/
theorem idx_cases : ∀ i : BitVec 2, i = 0 ∨ i = 1 ∨ i = 2 ∨ i = 3 := by decide

@[simp] theorem sampleRing_get_set_same (h : SampleRing) (i : BitVec 2) (v : Sample) : (h.set i v).get i = v := by
  rcases idx_cases i with rfl | rfl | rfl | rfl <;> rfl

theorem sampleRing_get_set_other (h : SampleRing) {i j : BitVec 2} (v : Sample) (hne : j ≠ i) : (h.set i v).get j = h.get j := by
  rcases idx_cases i with rfl | rfl | rfl | rfl <;> rcases idx_cases j with rfl | rfl | rfl | rfl <;>
    first | contradiction | rfl

end Sys2Proof.Machine
end

