-- ==== Sys2Proof/Laws/Ops.lean ====
section
/-! SUPPORT. What each shared operation can do, said once: proofs cite these instead of unfolding the operations. -/

namespace Sys2Proof.Machine

/-! ## One transport request -/

theorem issue_eq (r : Request) (s : State) :
    issue r s = { s with port := some (s.port.getD r), requests := s.requestsWith r } := by
  unfold issue State.requestsWith
  cases h : s.port <;> simp
  cases s; simp_all

theorem takeAnswer_issue (rest : List Answer) (r : Request) (s : State) :
    takeAnswer rest (issue r s) =
      { s with answers := rest, port := none, useq := s.useq + 1, requests := s.requestsWith r } := by
  simp [takeAnswer, issue_eq]

theorem transact_nil {r : Request} {next : Answer → State → State} {s : State} (h : s.answers = []) :
    transact r next s = issue r s := by simp [transact, h]

theorem transact_cons {r : Request} {next : Answer → State → State} {s : State} {a : Answer} {rest : List Answer}
    (h : s.answers = a :: rest) :
    transact r next s =
      next a { s with answers := rest, port := none, useq := s.useq + 1, requests := s.requestsWith r } := by
  simp [transact, h, takeAnswer_issue]

/-- All a transport request can do: wait with the request on the port, or go on with the first answer. -/
theorem transact_cases (r : Request) (next : Answer → State → State) (s : State) :
    (s.answers = [] ∧ transact r next s = issue r s) ∨
    ∃ a rest, s.answers = a :: rest ∧ transact r next s =
      next a { s with answers := rest, port := none, useq := s.useq + 1, requests := s.requestsWith r } := by
  cases h : s.answers with
  | nil => exact .inl ⟨rfl, transact_nil h⟩
  | cons a rest => exact .inr ⟨a, rest, rfl, transact_cons h⟩

/-- A response delivered right after an answer was taken is the end of the command. -/
theorem deliver_taken (s : State) (code : Code) (r0 r1 : BitVec 32) (rest : List Answer) (reqs : List Request)
    (u : BitVec 3) :
    deliver code r0 r1 { s with answers := rest, port := none, useq := u, requests := reqs } =
      ended s code r0 r1 rest reqs := rfl

/-! ## The micro-sequences -/

theorem readAndRespond_nil {id : BitVec 6} {ptr : Byte} {f : Reg16 → BitVec 32} {s : State} (h : s.answers = []) :
    readAndRespond id ptr f s = issue (rdReg (slaveOf id) ptr) s := transact_nil h

/-- One answered read ends the command with a function of the value (R121, R131, R155). -/
theorem readAndRespond_cons {id : BitVec 6} {ptr : Byte} {f : Reg16 → BitVec 32} {s : State} {a : Answer}
    {rest : List Answer} (h : s.answers = a :: rest) :
    readAndRespond id ptr f s = ended s codeOk (f a.reg) 0 rest (s.requestsWith (rdReg (slaveOf id) ptr)) := by
  unfold readAndRespond; rw [transact_cons h]; rfl

/-- What a state becomes when its first answer is taken. -/
def afterAnswer (s : State) (rest : List Answer) (r : Request) : State :=
  { s with answers := rest, port := none, useq := s.useq + 1, requests := s.requestsWith r }

variable {first : Request} {mid : Answer → State → AfterFirst} {second : State → Request}
  {finish : Answer → State → State} {s : State}

theorem twoRequests_nil (hu : s.useq = 0) (h : s.answers = []) :
    twoRequests first mid second finish s = issue first s := (if_pos hu).trans (transact_nil h)

theorem twoRequests_stop {a : Answer} {rest : List Answer} {u : State} (hu : s.useq = 0) (h : s.answers = a :: rest)
    (hm : mid a (afterAnswer s rest first) = .stop u) : twoRequests first mid second finish s = u := by
  rw [twoRequests, if_pos hu, transact_cons h]
  unfold afterAnswer at hm
  rw [hm]

theorem twoRequests_goOn {a : Answer} {rest : List Answer} {u : State} (hu : s.useq = 0) (h : s.answers = a :: rest)
    (hm : mid a (afterAnswer s rest first) = .goOn u) :
    twoRequests first mid second finish s = transact (second u) finish u := by
  rw [twoRequests, if_pos hu, transact_cons h]
  unfold afterAnswer at hm
  rw [hm]

theorem twoRequests_resumed (hu : s.useq ≠ 0) :
    twoRequests first mid second finish s = transact (second s) finish s := if_neg hu

/-- All a two-request command can do: wait for the first answer, end at it, or go on from it; or, resumed, go on from
where it waited. -/
theorem twoRequests_cases (first : Request) (mid : Answer → State → AfterFirst) (second : State → Request)
    (finish : Answer → State → State) (s : State) :
    (s.useq = 0 ∧ s.answers = [] ∧ twoRequests first mid second finish s = issue first s) ∨
    (∃ a rest u, s.useq = 0 ∧ s.answers = a :: rest ∧ mid a (afterAnswer s rest first) = .stop u ∧
      twoRequests first mid second finish s = u) ∨
    (∃ a rest u, s.useq = 0 ∧ s.answers = a :: rest ∧ mid a (afterAnswer s rest first) = .goOn u ∧
      twoRequests first mid second finish s = transact (second u) finish u) ∨
    (s.useq ≠ 0 ∧ twoRequests first mid second finish s = transact (second s) finish s) := by
  by_cases hu : s.useq = 0
  · cases h : s.answers with
    | nil => exact .inl ⟨hu, rfl, twoRequests_nil hu h⟩
    | cons a rest =>
      cases hm : mid a (afterAnswer s rest first) with
      | stop u => exact .inr (.inl ⟨a, rest, u, hu, rfl, hm, twoRequests_stop hu h hm⟩)
      | goOn u => exact .inr (.inr (.inl ⟨a, rest, u, hu, rfl, hm, twoRequests_goOn hu h hm⟩))
  · exact .inr (.inr (.inr ⟨hu, twoRequests_resumed hu⟩))

/-! ## Measurements -/

/-- A session that is not usable ends a measurement at once, with nothing asked of the transport (R187). -/
theorem measure_noSession {finish : Frame → State → State} (hu : s.useq = 0) (h : s.sessErr ≠ 0) :
    measure finish s = raiseE s.sessErr s := if_pos ⟨hu, h⟩

/-- Past the session test a measurement is its two requests (R187). -/
theorem measure_twoRequests {finish : Frame → State → State} (h : s.useq ≠ 0 ∨ s.sessErr = 0) :
    measure finish s = twoRequests (.devWrite shtCmd 2)
      (fun a s => if a.cnt ≠ 2 then .stop (raiseE eWrite s) else .goOn s) (fun _ => .devRead shtFrameLen)
      (frameRead finish) s :=
  if_neg (fun hn => h.elim (fun hu => hu hn.1) (fun he => hn.2 he))

end Sys2Proof.Machine
end

