-- ==== Sys2Proof/Laws/Effects.lean ====
section
/-! SUPPORT. What a command can do at all, said once: a chain of atomic effects, each allowed only to the commands that
have it, then either a request that stands on the port or one response. Proofs about who writes what cite
`exec_effect`, and proofs about a step `step_effect`, instead of unfolding the meanings. -/

namespace Sys2Proof.Machine

/-! ## The vocabulary -/

/-- One atomic effect of command `i`, with the commands it is allowed to (R30). -/
inductive AtomicEffect (i : Instr) (s : State) : State → Prop where
  | issues (r : Request) (h : r.Issuable) : AtomicEffect i s (issue r s)
  | takesAnswer (a : Answer) (rest : List Answer) (h : s.answers = a :: rest) : AtomicEffect i s (takeAnswer rest s)
  | writesT0 (v : Reg16) (h : (setter i).isSome ∨ (∃ id, i = .getobj id) ∨ ∃ id r, i = .getobjtc id r) :
      AtomicEffect i s { s with t0 := v }
  | writesRing (r : BitVec 3) (v : SampleRing)
      (h : (∃ id, i = .getobjtc id r) ∨ (∃ x w, i = .ringwr r x w) ∨ i = .ringclr r) :
      AtomicEffect i s (State.setRing r v s)
  | writesFr (f : Frame) (h : i = .shttemp ∨ i = .shthum) : AtomicEffect i s { s with fr := f }
  | writesSessErr (c : Code) (h : i = .shtinit) (hc : c = 0 ∨ c = -1 ∨ c = -2) :
      AtomicEffect i s { s with sessErr := c }

/-- Some atomic effects of command `i`, one after the other. -/
inductive EffectChain (i : Instr) : State → State → Prop where
  | nil (s : State) : EffectChain i s s
  | cons {s t u : State} : AtomicEffect i s t → EffectChain i t u → EffectChain i s u

/-- How command `i` leaves `s` behind: waiting for an answer, or ended with one response. -/
inductive CommandEffect (i : Instr) (s : State) : State → Prop where
  | waits {u : State} : EffectChain i s u → u.port ≠ none → CommandEffect i s u
  | ends {u : State} (code : Code) (r0 r1 : BitVec 32) : EffectChain i s u → (code = 0 ∨ r0 = 0 ∧ r1 = 0) →
      (code = 0 ∨ (∃ a b c, i = .crcchk a b c) ∨ i = .shtinit ∨ i = .shttemp ∨ i = .shthum) →
      CommandEffect i s (deliver code r0 r1 u)

variable {i : Instr} {s t u : State}

theorem EffectChain.one (h : AtomicEffect i s t) : EffectChain i s t := .cons h (.nil t)

theorem EffectChain.trans (h : EffectChain i s t) (h' : EffectChain i t u) : EffectChain i s u := by
  induction h with
  | nil => exact h'
  | cons a _ ih => exact .cons a (ih h')

theorem CommandEffect.after (h : EffectChain i s t) (h' : CommandEffect i t u) : CommandEffect i s u := by
  cases h' with
  | waits c hp => exact .waits (h.trans c) hp
  | ends code r0 r1 c hz hc => exact .ends code r0 r1 (h.trans c) hz hc

/-- What no atomic effect touches. -/
theorem EffectChain.keeps (h : EffectChain i s t) :
    t.busy = s.busy ∧ t.rspValid = s.rspValid ∧ t.status = s.status ∧ t.res0 = s.res0 ∧ t.res1 = s.res1 ∧
    t.t1 = s.t1 ∧ t.cur = s.cur ∧ t.rst = s.rst ∧ t.cmds = s.cmds ∧ t.draws = s.draws := by
  induction h with
  | nil => simp
  | cons a _ ih => cases a <;> simpa using ih

/-- Answers are taken from the front only. -/
theorem EffectChain.answers_suffix (h : EffectChain i s t) : t.answers <:+ s.answers := by
  induction h with
  | nil => exact List.suffix_refl _
  | cons a _ ih =>
    cases a with
    | takesAnswer a rest h => exact ih.trans (h ▸ List.suffix_cons a rest)
    | issues r _ => simpa [issue_eq] using ih
    | writesT0 | writesRing | writesFr | writesSessErr => exact ih

theorem CommandEffect.answers_suffix (h : CommandEffect i s t) : t.answers <:+ s.answers := by
  cases h with
  | waits c _ => exact c.answers_suffix
  | ends _ _ _ c _ _ => exact c.answers_suffix

/-- What no command touches. -/
theorem CommandEffect.keeps (h : CommandEffect i s t) :
    t.t1 = s.t1 ∧ t.cur = s.cur ∧ t.rst = s.rst ∧ t.cmds = s.cmds ∧ t.draws = s.draws := by
  cases h with
  | waits c _ => exact c.keeps.2.2.2.2.2
  | ends code r0 r1 c _ _ => simpa using c.keeps.2.2.2.2.2

/-! ## The shared operations in these words -/

theorem issue_port_ne (r : Request) (s : State) : (issue r s).port ≠ none := by simp [issue_eq]

theorem rdReg_issuable (id : BitVec 6) (ptr : Byte) : (rdReg (slaveOf id) ptr).Issuable := .inr (.inl ⟨id, ptr, rfl⟩)
theorem wrReg_issuable (id : BitVec 6) (ptr : Byte) (v : Reg16) : (wrReg (slaveOf id) ptr v).Issuable :=
  .inl ⟨id, ptr, v, rfl⟩
theorem devOpen_issuable : Request.devOpen.Issuable := by simp [Request.Issuable]
theorem devSelect_issuable : (Request.devSelect shtAddr).Issuable := .inr (.inr (.inr (.inl rfl)))
theorem devWrite_issuable : (Request.devWrite shtCmd 2).Issuable := .inr (.inr (.inr (.inr (.inl rfl))))
theorem devRead_issuable : (Request.devRead shtFrameLen).Issuable := .inr (.inr (.inr (.inr (.inr rfl))))

theorem respond_effect {r0 r1 : BitVec 32} : CommandEffect i s (respond r0 r1 s) :=
  .ends _ _ _ (.nil s) (.inl rfl) (.inl rfl)

theorem transact_effect {r : Request} {next : Answer → State → State} (hr : r.Issuable)
    (h : ∀ a u, CommandEffect i u (next a u)) : CommandEffect i s (transact r next s) := by
  rcases transact_cases r next s with ⟨_, e⟩ | ⟨a, rest, ha, e⟩
  · rw [e]; exact .waits (.one (.issues r hr)) (issue_port_ne r s)
  · rw [e, ← takeAnswer_issue]
    exact (h a _).after (.cons (.issues r hr) (.one (.takesAnswer a rest (by simpa [issue_eq] using ha))))

theorem readAndRespond_effect {id : BitVec 6} {ptr : Byte} {f : Reg16 → BitVec 32} :
    CommandEffect i s (readAndRespond id ptr f s) := transact_effect (rdReg_issuable id ptr) fun _ _ => respond_effect

theorem twoRequests_effect {first : Request} {mid : Answer → State → AfterFirst} {second : State → Request}
    {finish : Answer → State → State} (h1 : first.Issuable) (h2 : ∀ u, (second u).Issuable)
    (hm : ∀ a u, (∃ v, mid a u = .stop v ∧ CommandEffect i u v) ∨ ∃ v, mid a u = .goOn v ∧ EffectChain i u v)
    (hf : ∀ a u, CommandEffect i u (finish a u)) : CommandEffect i s (twoRequests first mid second finish s) := by
  have h3 : ∀ u, CommandEffect i u (transact (second u) finish u) := fun u => transact_effect (h2 u) hf
  unfold twoRequests
  split
  · refine transact_effect h1 fun a u => ?_
    rcases hm a u with ⟨v, e, h⟩ | ⟨v, e, h⟩
    · simpa only [e] using h
    · simpa only [e] using (h3 v).after h
  · exact h3 s

theorem setField_effect {n : Nat} {id : BitVec 6} {m : Reg16} {lo : Nat} {v : BitVec n} (h : (setter i).isSome) :
    CommandEffect i s (setField id m lo v s) :=
  twoRequests_effect (rdReg_issuable _ _) (fun _ => wrReg_issuable _ _ _)
    (fun _ _ => .inr ⟨_, rfl, .one (.writesT0 _ (.inl h))⟩) (fun _ _ => respond_effect)

theorem measure_effect {finish : Frame → State → State} (h : i = .shttemp ∨ i = .shthum)
    (hf : ∀ f u, CommandEffect i u (finish f u)) : CommandEffect i s (measure finish s) := by
  have raise : ∀ (c : Code) {u v : State}, EffectChain i u v → CommandEffect i u (raiseE c v) := fun c _ _ hc =>
    .ends _ _ _ hc (.inr ⟨rfl, rfl⟩) (.inr (.inr (.inr h)))
  unfold measure
  split
  · exact raise _ (.nil s)
  · refine twoRequests_effect devWrite_issuable (fun _ => devRead_issuable) (fun a u => ?_) (fun a u => ?_)
    · split
      · exact .inl ⟨_, rfl, raise _ (.nil u)⟩
      · exact .inr ⟨_, rfl, .nil u⟩
    · unfold frameRead
      split
      · exact raise _ (.one (.writesFr _ h))
      · exact (hf _ _).after (.one (.writesFr _ h))

/-! ## All a command can do -/

theorem exec_effect (i : Instr) (s t : State) (h : exec i s = .next t) : CommandEffect i s t := by
  cases i with
  | wrreg => cases h; exact transact_effect (wrReg_issuable _ _ _) fun _ _ => respond_effect
  | rdreg => cases h; exact readAndRespond_effect
  | swrst => cases h; exact setField_effect rfl
  | getmode => cases h; exact readAndRespond_effect
  | setmode => cases h; exact setField_effect rfl
  | getrate => cases h; exact readAndRespond_effect
  | setrate => cases h; exact setField_effect rfl
  | getdrdyen => cases h; exact readAndRespond_effect
  | setdrdyen => cases h; exact setField_effect rfl
  | getdrdy => cases h; exact readAndRespond_effect
  | clrdrdy => cases h; exact setField_effect rfl
  | getmfgid => cases h; exact readAndRespond_effect
  | getdevid => cases h; exact readAndRespond_effect
  | getamb => cases h; exact readAndRespond_effect
  | getobj id =>
    cases h
    exact twoRequests_effect (rdReg_issuable _ _) (fun _ => rdReg_issuable _ _)
      (fun _ _ => .inr ⟨_, rfl, .one (.writesT0 _ (.inr (.inl ⟨id, rfl⟩)))⟩) (fun _ _ => respond_effect)
  | getobjtc id r =>
    cases h
    exact twoRequests_effect (rdReg_issuable _ _) (fun _ => rdReg_issuable _ _)
      (fun a _ => .inr ⟨_, rfl, .cons (.writesT0 a.reg (.inr (.inr ⟨id, r, rfl⟩))) (.one (.writesRing r _ (.inl ⟨id, rfl⟩)))⟩)
      (fun _ _ => respond_effect)
  | ringrd => cases h; exact respond_effect
  | ringwr r x v => cases h; exact respond_effect.after (.one (.writesRing r _ (.inr (.inl ⟨x, v, rfl⟩))))
  | ringclr r => cases h; exact respond_effect.after (.one (.writesRing r _ (.inr (.inr rfl))))
  | crc8 => cases h; exact respond_effect
  | crcchk =>
    cases h
    split
    · exact .ends _ _ _ (.nil s) (.inr ⟨rfl, rfl⟩) (.inr (.inl ⟨_, _, _, rfl⟩))
    · exact respond_effect
  | shtinit =>
    cases h
    have raise : ∀ (c : Code) (u : State), c = -1 ∨ c = -2 →
        CommandEffect .shtinit u (raiseE c { u with sessErr := c }) := fun c u hc =>
      .ends _ _ _ (.one (.writesSessErr c rfl (.inr hc))) (.inr ⟨rfl, rfl⟩) (.inr (.inr (.inl rfl)))
    refine twoRequests_effect devOpen_issuable (fun _ => devSelect_issuable) (fun a u => ?_) (fun a u => ?_)
    · split
      · exact .inr ⟨_, rfl, .nil u⟩
      · exact .inl ⟨_, rfl, raise eOpen u (.inl rfl)⟩
    · split
      · exact respond_effect.after (.one (.writesSessErr codeOk rfl (.inl rfl)))
      · exact raise eSelect u (.inr rfl)
  | shttemp =>
    cases h
    refine measure_effect (.inl rfl) fun f u => ?_
    unfold decodeTemp
    split
    · exact .ends _ _ _ (.nil u) (.inr ⟨rfl, rfl⟩) (.inr (.inr (.inr (.inl rfl))))
    · exact respond_effect
  | shthum =>
    cases h
    refine measure_effect (.inr rfl) fun f u => ?_
    unfold decodeHum
    split
    · exact .ends _ _ _ (.nil u) (.inr ⟨rfl, rfl⟩) (.inr (.inr (.inr (.inr rfl))))
    · exact respond_effect

/-! ## All a step can do -/

/-- The state a step of an unreset block runs its command from: a busy block as it stands, an idle one that has just
accepted the first word presented. -/
inductive RunsFrom (s : State) : State → Prop where
  | busy (h : s.busy = true) : RunsFrom s (dropRspValid s)
  | accepts (w : CmdWord) (rest : List CmdWord) (h : s.busy = false) (hc : s.cmds = w :: rest) :
      RunsFrom s (accept w rest (dropRspValid s))

/-- All a step can do: reset, stay idle, run the command in CUR, or end an illegal word. -/
inductive StepEffect (s : State) : State → Prop where
  | reset (h : s.rst = true) : StepEffect s (applyReset s)
  | idle (hr : s.rst = false) (hb : s.busy = false) (hc : s.cmds = []) : StepEffect s (dropRspValid s)
  | runs {u t : State} (hr : s.rst = false) (hu : RunsFrom s u) (i : Instr) (hd : decode u.cur = .command i)
      (he : exec i u = .next t) : StepEffect s t
  | illegal {u : State} (hr : s.rst = false) (hu : RunsFrom s u) (why : IllegalWord)
      (hd : decode u.cur = .illegal why) : StepEffect s (raiseE eIllegal u)

theorem runCur_effect (hr : s.rst = false) (hu : RunsFrom s u) (h : runCur u = .next t) : StepEffect s t := by
  unfold runCur at h
  split at h
  · rename_i i hd; exact .runs hr hu i hd h
  · rename_i why hd; cases h; exact .illegal hr hu why hd

theorem step_effect (s t : State) (h : step s = .next t) : StepEffect s t := by
  unfold step at h
  split at h
  · rename_i hr; cases h; exact .reset hr
  · rename_i hr
    rw [Bool.not_eq_true] at hr
    split at h
    · rename_i hb; exact runCur_effect hr (.busy hb) h
    · rename_i hb
      rw [Bool.not_eq_true] at hb
      split at h
      · rename_i hc; cases h; exact .idle hr hb hc
      · rename_i w rest hc; exact runCur_effect hr (.accepts w rest hb hc) h

end Sys2Proof.Machine
end

