-- ==== Sys2Proof/Laws/PerInstr.lean ====
section
/-! SUPPORT. Statements about every command, one lemma per constructor of Instr: its operands fit their fields, and its
word is one of its own row of the opcode map, from which the row builds the command back. -/

namespace Sys2Proof

/-! ## Operands fit their fields (spec/30_encoding.md rules R94, R101) -/

/-- The command is well formed: every operand fits the field that holds it. -/
def Laws.OperandsFit.Statement (i : Instr) : Prop := i.wellFormed = true

theorem Laws.OperandsFit.wrreg (id : BitVec 6) (addr : BitVec 8) (data : BitVec 16) : Laws.OperandsFit.Statement (.wrreg id addr data) := by
  simp [Laws.OperandsFit.Statement, Instr.wellFormed, Instr.line, Line.wellFormed, Mnemonic.operandWidths,
    operandsFit]
  omega
theorem Laws.OperandsFit.rdreg (id : BitVec 6) (addr : BitVec 8) : Laws.OperandsFit.Statement (.rdreg id addr) := by
  simp [Laws.OperandsFit.Statement, Instr.wellFormed, Instr.line, Line.wellFormed, Mnemonic.operandWidths,
    operandsFit]
  omega
theorem Laws.OperandsFit.swrst (id : BitVec 6) : Laws.OperandsFit.Statement (.swrst id) := by
  simp [Laws.OperandsFit.Statement, Instr.wellFormed, Instr.line, Line.wellFormed, Mnemonic.operandWidths,
    operandsFit]
  omega
theorem Laws.OperandsFit.getmode (id : BitVec 6) : Laws.OperandsFit.Statement (.getmode id) := by
  simp [Laws.OperandsFit.Statement, Instr.wellFormed, Instr.line, Line.wellFormed, Mnemonic.operandWidths,
    operandsFit]
  omega
theorem Laws.OperandsFit.setmode (id : BitVec 6) (val3 : BitVec 3) : Laws.OperandsFit.Statement (.setmode id val3) := by
  simp [Laws.OperandsFit.Statement, Instr.wellFormed, Instr.line, Line.wellFormed, Mnemonic.operandWidths,
    operandsFit]
  omega
theorem Laws.OperandsFit.getrate (id : BitVec 6) : Laws.OperandsFit.Statement (.getrate id) := by
  simp [Laws.OperandsFit.Statement, Instr.wellFormed, Instr.line, Line.wellFormed, Mnemonic.operandWidths,
    operandsFit]
  omega
theorem Laws.OperandsFit.setrate (id : BitVec 6) (val3 : BitVec 3) : Laws.OperandsFit.Statement (.setrate id val3) := by
  simp [Laws.OperandsFit.Statement, Instr.wellFormed, Instr.line, Line.wellFormed, Mnemonic.operandWidths,
    operandsFit]
  omega
theorem Laws.OperandsFit.getdrdyen (id : BitVec 6) : Laws.OperandsFit.Statement (.getdrdyen id) := by
  simp [Laws.OperandsFit.Statement, Instr.wellFormed, Instr.line, Line.wellFormed, Mnemonic.operandWidths,
    operandsFit]
  omega
theorem Laws.OperandsFit.setdrdyen (id : BitVec 6) (val1 : BitVec 1) : Laws.OperandsFit.Statement (.setdrdyen id val1) := by
  simp [Laws.OperandsFit.Statement, Instr.wellFormed, Instr.line, Line.wellFormed, Mnemonic.operandWidths,
    operandsFit]
  omega
theorem Laws.OperandsFit.getdrdy (id : BitVec 6) : Laws.OperandsFit.Statement (.getdrdy id) := by
  simp [Laws.OperandsFit.Statement, Instr.wellFormed, Instr.line, Line.wellFormed, Mnemonic.operandWidths,
    operandsFit]
  omega
theorem Laws.OperandsFit.clrdrdy (id : BitVec 6) : Laws.OperandsFit.Statement (.clrdrdy id) := by
  simp [Laws.OperandsFit.Statement, Instr.wellFormed, Instr.line, Line.wellFormed, Mnemonic.operandWidths,
    operandsFit]
  omega
theorem Laws.OperandsFit.getmfgid (id : BitVec 6) : Laws.OperandsFit.Statement (.getmfgid id) := by
  simp [Laws.OperandsFit.Statement, Instr.wellFormed, Instr.line, Line.wellFormed, Mnemonic.operandWidths,
    operandsFit]
  omega
theorem Laws.OperandsFit.getdevid (id : BitVec 6) : Laws.OperandsFit.Statement (.getdevid id) := by
  simp [Laws.OperandsFit.Statement, Instr.wellFormed, Instr.line, Line.wellFormed, Mnemonic.operandWidths,
    operandsFit]
  omega
theorem Laws.OperandsFit.getamb (id : BitVec 6) : Laws.OperandsFit.Statement (.getamb id) := by
  simp [Laws.OperandsFit.Statement, Instr.wellFormed, Instr.line, Line.wellFormed, Mnemonic.operandWidths,
    operandsFit]
  omega
theorem Laws.OperandsFit.getobj (id : BitVec 6) : Laws.OperandsFit.Statement (.getobj id) := by
  simp [Laws.OperandsFit.Statement, Instr.wellFormed, Instr.line, Line.wellFormed, Mnemonic.operandWidths,
    operandsFit]
  omega
theorem Laws.OperandsFit.getobjtc (id : BitVec 6) (ring : BitVec 3) : Laws.OperandsFit.Statement (.getobjtc id ring) := by
  simp [Laws.OperandsFit.Statement, Instr.wellFormed, Instr.line, Line.wellFormed, Mnemonic.operandWidths,
    operandsFit]
  omega
theorem Laws.OperandsFit.ringrd (ring : BitVec 3) (idx : BitVec 2) : Laws.OperandsFit.Statement (.ringrd ring idx) := by
  simp [Laws.OperandsFit.Statement, Instr.wellFormed, Instr.line, Line.wellFormed, Mnemonic.operandWidths,
    operandsFit]
  omega
theorem Laws.OperandsFit.ringwr (ring : BitVec 3) (idx : BitVec 2) (val17 : BitVec 17) : Laws.OperandsFit.Statement (.ringwr ring idx val17) := by
  simp [Laws.OperandsFit.Statement, Instr.wellFormed, Instr.line, Line.wellFormed, Mnemonic.operandWidths,
    operandsFit]
  omega
theorem Laws.OperandsFit.ringclr (ring : BitVec 3) : Laws.OperandsFit.Statement (.ringclr ring) := by
  simp [Laws.OperandsFit.Statement, Instr.wellFormed, Instr.line, Line.wellFormed, Mnemonic.operandWidths,
    operandsFit]
  omega
theorem Laws.OperandsFit.crc8 (len : BitVec 2) (b0 : BitVec 8) (b1 : BitVec 8) (b2 : BitVec 8) : Laws.OperandsFit.Statement (.crc8 len b0 b1 b2) := by
  simp [Laws.OperandsFit.Statement, Instr.wellFormed, Instr.line, Line.wellFormed, Mnemonic.operandWidths,
    operandsFit]
  omega
theorem Laws.OperandsFit.crcchk (b0 : BitVec 8) (b1 : BitVec 8) (b2 : BitVec 8) : Laws.OperandsFit.Statement (.crcchk b0 b1 b2) := by
  simp [Laws.OperandsFit.Statement, Instr.wellFormed, Instr.line, Line.wellFormed, Mnemonic.operandWidths,
    operandsFit]
  omega
theorem Laws.OperandsFit.shtinit : Laws.OperandsFit.Statement .shtinit := rfl
theorem Laws.OperandsFit.shttemp : Laws.OperandsFit.Statement .shttemp := rfl
theorem Laws.OperandsFit.shthum : Laws.OperandsFit.Statement .shthum := rfl

/-! ## Each command is encoded into its own row (R95, R97) -/

/-- The command's word satisfies a row of the opcode map, and that row's fields give the command back. -/
def Laws.EncodesIntoItsRow.Statement (i : Instr) : Prop :=
  ∃ r ∈ opcodeMap, encode i &&& r.mask = r.bits ∧ r.build (encode i) = i

theorem Laws.EncodesIntoItsRow.wrreg (id : BitVec 6) (addr : BitVec 8) (data : BitVec 16) :
    Laws.EncodesIntoItsRow.Statement (.wrreg id addr data) := by
  refine ⟨_, tmp006_mem 0 (by decide), ?_, ?_⟩
  · simp [encode, opcodeRowsTmp006, or_and_mask, place_and_mask, place_zero]
    rfl
  · simp [encode, opcodeRowsTmp006, idOf, addrOf, dataOf, BitVec.extractLsb'_or, extract_place_same,
      extract_place_disjoint]
theorem Laws.EncodesIntoItsRow.rdreg (id : BitVec 6) (addr : BitVec 8) :
    Laws.EncodesIntoItsRow.Statement (.rdreg id addr) := by
  refine ⟨_, tmp006_mem 1 (by decide), ?_, ?_⟩
  · simp [encode, opcodeRowsTmp006, or_and_mask, place_and_mask, place_zero]
    rfl
  · simp [encode, opcodeRowsTmp006, idOf, addrOf, BitVec.extractLsb'_or, extract_place_same,
      extract_place_disjoint]
theorem Laws.EncodesIntoItsRow.swrst (id : BitVec 6) :
    Laws.EncodesIntoItsRow.Statement (.swrst id) := by
  refine ⟨_, tmp006_mem 2 (by decide), ?_, ?_⟩
  · simp [encode, opcodeRowsTmp006, or_and_mask, place_and_mask, place_zero]
    rfl
  · simp [encode, opcodeRowsTmp006, idOf, BitVec.extractLsb'_or, extract_place_same,
      extract_place_disjoint]
theorem Laws.EncodesIntoItsRow.getmode (id : BitVec 6) :
    Laws.EncodesIntoItsRow.Statement (.getmode id) := by
  refine ⟨_, tmp006_mem 3 (by decide), ?_, ?_⟩
  · simp [encode, opcodeRowsTmp006, or_and_mask, place_and_mask, place_zero]
    rfl
  · simp [encode, opcodeRowsTmp006, idOf, BitVec.extractLsb'_or, extract_place_same,
      extract_place_disjoint]
theorem Laws.EncodesIntoItsRow.setmode (id : BitVec 6) (val3 : BitVec 3) :
    Laws.EncodesIntoItsRow.Statement (.setmode id val3) := by
  refine ⟨_, tmp006_mem 4 (by decide), ?_, ?_⟩
  · simp [encode, opcodeRowsTmp006, or_and_mask, place_and_mask, place_zero]
    rfl
  · simp [encode, opcodeRowsTmp006, idOf, val3Of, BitVec.extractLsb'_or, extract_place_same,
      extract_place_disjoint]
theorem Laws.EncodesIntoItsRow.getrate (id : BitVec 6) :
    Laws.EncodesIntoItsRow.Statement (.getrate id) := by
  refine ⟨_, tmp006_mem 5 (by decide), ?_, ?_⟩
  · simp [encode, opcodeRowsTmp006, or_and_mask, place_and_mask, place_zero]
    rfl
  · simp [encode, opcodeRowsTmp006, idOf, BitVec.extractLsb'_or, extract_place_same,
      extract_place_disjoint]
theorem Laws.EncodesIntoItsRow.setrate (id : BitVec 6) (val3 : BitVec 3) :
    Laws.EncodesIntoItsRow.Statement (.setrate id val3) := by
  refine ⟨_, tmp006_mem 6 (by decide), ?_, ?_⟩
  · simp [encode, opcodeRowsTmp006, or_and_mask, place_and_mask, place_zero]
    rfl
  · simp [encode, opcodeRowsTmp006, idOf, val3Of, BitVec.extractLsb'_or, extract_place_same,
      extract_place_disjoint]
theorem Laws.EncodesIntoItsRow.getdrdyen (id : BitVec 6) :
    Laws.EncodesIntoItsRow.Statement (.getdrdyen id) := by
  refine ⟨_, tmp006_mem 7 (by decide), ?_, ?_⟩
  · simp [encode, opcodeRowsTmp006, or_and_mask, place_and_mask, place_zero]
    rfl
  · simp [encode, opcodeRowsTmp006, idOf, BitVec.extractLsb'_or, extract_place_same,
      extract_place_disjoint]
theorem Laws.EncodesIntoItsRow.setdrdyen (id : BitVec 6) (val1 : BitVec 1) :
    Laws.EncodesIntoItsRow.Statement (.setdrdyen id val1) := by
  refine ⟨_, tmp006_mem 8 (by decide), ?_, ?_⟩
  · simp [encode, opcodeRowsTmp006, or_and_mask, place_and_mask, place_zero]
    rfl
  · simp [encode, opcodeRowsTmp006, idOf, val1Of, BitVec.extractLsb'_or, extract_place_same,
      extract_place_disjoint]
theorem Laws.EncodesIntoItsRow.getdrdy (id : BitVec 6) :
    Laws.EncodesIntoItsRow.Statement (.getdrdy id) := by
  refine ⟨_, tmp006_mem 9 (by decide), ?_, ?_⟩
  · simp [encode, opcodeRowsTmp006, or_and_mask, place_and_mask, place_zero]
    rfl
  · simp [encode, opcodeRowsTmp006, idOf, BitVec.extractLsb'_or, extract_place_same,
      extract_place_disjoint]
theorem Laws.EncodesIntoItsRow.clrdrdy (id : BitVec 6) :
    Laws.EncodesIntoItsRow.Statement (.clrdrdy id) := by
  refine ⟨_, tmp006_mem 10 (by decide), ?_, ?_⟩
  · simp [encode, opcodeRowsTmp006, or_and_mask, place_and_mask, place_zero]
    rfl
  · simp [encode, opcodeRowsTmp006, idOf, BitVec.extractLsb'_or, extract_place_same,
      extract_place_disjoint]
theorem Laws.EncodesIntoItsRow.getmfgid (id : BitVec 6) :
    Laws.EncodesIntoItsRow.Statement (.getmfgid id) := by
  refine ⟨_, tmp006_mem 11 (by decide), ?_, ?_⟩
  · simp [encode, opcodeRowsTmp006, or_and_mask, place_and_mask, place_zero]
    rfl
  · simp [encode, opcodeRowsTmp006, idOf, BitVec.extractLsb'_or, extract_place_same,
      extract_place_disjoint]
theorem Laws.EncodesIntoItsRow.getdevid (id : BitVec 6) :
    Laws.EncodesIntoItsRow.Statement (.getdevid id) := by
  refine ⟨_, tmp006_mem 12 (by decide), ?_, ?_⟩
  · simp [encode, opcodeRowsTmp006, or_and_mask, place_and_mask, place_zero]
    rfl
  · simp [encode, opcodeRowsTmp006, idOf, BitVec.extractLsb'_or, extract_place_same,
      extract_place_disjoint]
theorem Laws.EncodesIntoItsRow.getamb (id : BitVec 6) :
    Laws.EncodesIntoItsRow.Statement (.getamb id) := by
  refine ⟨_, ring_mem 0 (by decide), ?_, ?_⟩
  · simp [encode, opcodeRowsRing, or_and_mask, place_and_mask, place_zero]
    rfl
  · simp [encode, opcodeRowsRing, idOf, BitVec.extractLsb'_or, extract_place_same,
      extract_place_disjoint]
theorem Laws.EncodesIntoItsRow.getobj (id : BitVec 6) :
    Laws.EncodesIntoItsRow.Statement (.getobj id) := by
  refine ⟨_, ring_mem 1 (by decide), ?_, ?_⟩
  · simp [encode, opcodeRowsRing, or_and_mask, place_and_mask, place_zero]
    rfl
  · simp [encode, opcodeRowsRing, idOf, BitVec.extractLsb'_or, extract_place_same,
      extract_place_disjoint]
theorem Laws.EncodesIntoItsRow.getobjtc (id : BitVec 6) (ring : BitVec 3) :
    Laws.EncodesIntoItsRow.Statement (.getobjtc id ring) := by
  refine ⟨_, ring_mem 2 (by decide), ?_, ?_⟩
  · simp [encode, opcodeRowsRing, or_and_mask, place_and_mask, place_zero]
    rfl
  · simp [encode, opcodeRowsRing, idOf, ringOf, BitVec.extractLsb'_or, extract_place_same,
      extract_place_disjoint]
theorem Laws.EncodesIntoItsRow.ringrd (ring : BitVec 3) (idx : BitVec 2) :
    Laws.EncodesIntoItsRow.Statement (.ringrd ring idx) := by
  refine ⟨_, ring_mem 3 (by decide), ?_, ?_⟩
  · simp [encode, opcodeRowsRing, or_and_mask, place_and_mask, place_zero]
    rfl
  · simp [encode, opcodeRowsRing, ringOf, idxOf, BitVec.extractLsb'_or, extract_place_same,
      extract_place_disjoint]
theorem Laws.EncodesIntoItsRow.ringwr (ring : BitVec 3) (idx : BitVec 2) (val17 : BitVec 17) :
    Laws.EncodesIntoItsRow.Statement (.ringwr ring idx val17) := by
  refine ⟨_, ring_mem 4 (by decide), ?_, ?_⟩
  · simp [encode, opcodeRowsRing, or_and_mask, place_and_mask, place_zero]
    rfl
  · simp [encode, opcodeRowsRing, ringOf, idxOf, val17Of, BitVec.extractLsb'_or, extract_place_same,
      extract_place_disjoint]
theorem Laws.EncodesIntoItsRow.ringclr (ring : BitVec 3) :
    Laws.EncodesIntoItsRow.Statement (.ringclr ring) := by
  refine ⟨_, ring_mem 5 (by decide), ?_, ?_⟩
  · simp [encode, opcodeRowsRing, or_and_mask, place_and_mask, place_zero]
    rfl
  · simp [encode, opcodeRowsRing, ringOf, BitVec.extractLsb'_or, extract_place_same,
      extract_place_disjoint]
theorem Laws.EncodesIntoItsRow.crc8 (len : BitVec 2) (b0 : BitVec 8) (b1 : BitVec 8) (b2 : BitVec 8) :
    Laws.EncodesIntoItsRow.Statement (.crc8 len b0 b1 b2) := by
  refine ⟨_, sht31_mem 0 (by decide), ?_, ?_⟩
  · simp [encode, opcodeRowsSht31, or_and_mask, place_and_mask, place_zero]
    rfl
  · simp [encode, opcodeRowsSht31, lenOf, b0Of, b1Of, b2Of, BitVec.extractLsb'_or, extract_place_same,
      extract_place_disjoint]
theorem Laws.EncodesIntoItsRow.crcchk (b0 : BitVec 8) (b1 : BitVec 8) (b2 : BitVec 8) :
    Laws.EncodesIntoItsRow.Statement (.crcchk b0 b1 b2) := by
  refine ⟨_, sht31_mem 1 (by decide), ?_, ?_⟩
  · simp [encode, opcodeRowsSht31, or_and_mask, place_and_mask, place_zero]
    rfl
  · simp [encode, opcodeRowsSht31, b0Of, b1Of, b2Of, BitVec.extractLsb'_or, extract_place_same,
      extract_place_disjoint]
theorem Laws.EncodesIntoItsRow.shtinit :
    Laws.EncodesIntoItsRow.Statement .shtinit := by
  exact ⟨_, sht31_mem 2 (by decide), rfl, rfl⟩
theorem Laws.EncodesIntoItsRow.shttemp :
    Laws.EncodesIntoItsRow.Statement .shttemp := by
  exact ⟨_, sht31_mem 3 (by decide), rfl, rfl⟩
theorem Laws.EncodesIntoItsRow.shthum :
    Laws.EncodesIntoItsRow.Statement .shthum := by
  exact ⟨_, sht31_mem 4 (by decide), rfl, rfl⟩

end Sys2Proof
end

