-- ==== Sys2Proof/Tests/Slice0.lean ====
section
/-! SUPPORT. Tests of the model on values taken from spec/95_test_vectors.md and the rules' worked examples, and the
witnesses that the hypotheses of the obligations can be met. -/

open Sys2Proof Sys2Proof.Machine

namespace Sys2Proof.Tests

set_option maxRecDepth 8000

/-! ## Helpers -/

/-- The answer of a register read: two bytes, most significant first. -/
def bytesAnswer (hi lo : Byte) : Answer := ⟨true, 2, ⟨hi, lo, 0, 0, 0, 0⟩⟩
/-- An answer of `DevOpen` or `DevSelect`. -/
def okAnswer (ok : Bool) : Answer := ⟨ok, 0, ⟨0, 0, 0, 0, 0, 0⟩⟩
/-- An answer of `DevWrite`. -/
def countAnswer (n : BitVec 8) : Answer := ⟨true, n, ⟨0, 0, 0, 0, 0, 0⟩⟩
/-- An answer of `DevRead`. -/
def frameAnswer (n : BitVec 8) (f : Frame) : Answer := ⟨true, n, f⟩

/-- The state a step answers, if it answers one. -/
def nextOf : Result → Option State
  | .next t => some t
  | .fault _ => none
  | .refused _ => none

/-- Present one word to `s`, give the transport these answers, take one step. -/
def present (s : State) (w : CmdWord) (answers : List Answer) : Option State :=
  nextOf (step { s with cmds := [w], answers := answers })

/-- The response of a state. -/
def response (t : State) : Code × BitVec 32 × BitVec 32 := (t.status, t.res0, t.res1)

/-- What one word does to `s`: the response, and the requests issued. -/
def run (s : State) (w : CmdWord) (answers : List Answer) : Option ((Code × BitVec 32 × BitVec 32) × List Request) :=
  (present s w answers).map fun t => (response t, t.requests)

/-- A state that has just accepted a command. -/
def fresh (answers : List Answer) : State := { State.reset with busy := true, answers := answers }

/-- A state with a usable SHT31 session. -/
def session : State := { State.reset with sessErr := 0 }

/-- A state whose ring 0 is the given one. -/
def withRing (h : SampleRing) : State := State.setRing 0 h State.reset

/-! ## Decoding: words written out field by field from rules R94, R95, R97 -/

theorem test_decode_register_access :
    decode (0x01#8 ++ 0b00#2 ++ 3#6 ++ 0x02#8 ++ 0x00#8 ++ 0x7400#16) = .command (.wrreg 3 0x02 0x7400) ∧
    decode (0x02#8 ++ 0b00#2 ++ 1#6 ++ 0xFE#8 ++ 0#24) = .command (.rdreg 1 0xFE) := by decide

theorem test_decode_configuration_d :
    decode (0x10#8 ++ 0b00#2 ++ 5#6 ++ 0#32) = .command (.swrst 5) ∧
    decode (0x11#8 ++ 0b00#2 ++ 63#6 ++ 0#32) = .command (.getmode 63) ∧
    decode (0x13#8 ++ 0b00#2 ++ 0#6 ++ 0#32) = .command (.getrate 0) ∧
    decode (0x15#8 ++ 0b00#2 ++ 1#6 ++ 0#32) = .command (.getdrdyen 1) ∧
    decode (0x17#8 ++ 0b00#2 ++ 2#6 ++ 0#32) = .command (.getdrdy 2) ∧
    decode (0x18#8 ++ 0b00#2 ++ 4#6 ++ 0#32) = .command (.clrdrdy 4) ∧
    decode (0x19#8 ++ 0b00#2 ++ 8#6 ++ 0#32) = .command (.getmfgid 8) ∧
    decode (0x1A#8 ++ 0b00#2 ++ 32#6 ++ 0#32) = .command (.getdevid 32) := by decide

theorem test_decode_configuration_f :
    decode (0x12#8 ++ 0b00#2 ++ 5#6 ++ 0#29 ++ 0b111#3) = .command (.setmode 5 7) ∧
    decode (0x14#8 ++ 0b00#2 ++ 0#6 ++ 0#29 ++ 0b100#3) = .command (.setrate 0 4) ∧
    decode (0x16#8 ++ 0b00#2 ++ 1#6 ++ 0#31 ++ 0b1#1) = .command (.setdrdyen 1 1) := by decide

theorem test_decode_decoder :
    decode (0x20#8 ++ 0b00#2 ++ 9#6 ++ 0#32) = .command (.getamb 9) ∧
    decode (0x21#8 ++ 0b00#2 ++ 10#6 ++ 0#32) = .command (.getobj 10) := by decide

theorem test_decode_ring :
    decode (0x22#8 ++ 0b00#2 ++ 7#6 ++ 0b000#3 ++ 0b110#3 ++ 0#26) = .command (.getobjtc 7 6) ∧
    decode (0x30#8 ++ 0#11 ++ 0b001#3 ++ 0b10#2 ++ 0#24) = .command (.ringrd 1 2) ∧
    decode (0x31#8 ++ 0#11 ++ 0b111#3 ++ 0b11#2 ++ 0#7 ++ 131071#17) = .command (.ringwr 7 3 131071) ∧
    decode (0x32#8 ++ 0#11 ++ 0b111#3 ++ 0#26) = .command (.ringclr 7) := by decide

theorem test_decode_crc :
    decode (0x40#8 ++ 0#14 ++ 0b10#2 ++ 0xBE#8 ++ 0xEF#8 ++ 0x55#8) = .command (.crc8 2 0xBE 0xEF 0x55) ∧
    decode (0x41#8 ++ 0#16 ++ 0xBE#8 ++ 0xEF#8 ++ 0x92#8) = .command (.crcchk 0xBE 0xEF 0x92) := by decide

theorem test_decode_sht31 :
    decode (0x50#8 ++ 0#40) = .command .shtinit ∧ decode (0x51#8 ++ 0#40) = .command .shttemp ∧
    decode (0x52#8 ++ 0#40) = .command .shthum := by decide

/-- The illegal words of vector V37, first those with an unassigned `OPC`. -/
theorem test_decode_illegal_opcode :
    [0x000000000000#48, 0x030000000000#48, 0xFF0000000000#48].map decode =
      List.replicate 3 (.illegal .unassignedOpcode) := by decide

theorem test_decode_illegal_reserved_tmp006 :
    [0x014002007400#48, 0x018002007400#48, 0x010002017400#48, 0x0200FE000001#48, 0x120000000008#48, 0x160000000002#48,
      0x200001000000#48].map decode = List.replicate 7 (.illegal .reservedBitSet) := by decide

theorem test_decode_illegal_reserved_other :
    [0x220020000000#48, 0x220001000000#48, 0x300100000000#48, 0x310000020000#48, 0x320001000000#48, 0x400004000000#48,
      0x410001000000#48, 0x500000000001#48, 0x510100000000#48].map decode =
      List.replicate 9 (.illegal .reservedBitSet) := by decide

/-- The legal neighbours of vector V38. -/
theorem test_decode_legal_neighbours :
    decode 0x013F02007400 = .command (.wrreg 63 0x02 0x7400) ∧ decode 0x22071C000000 = .command (.getobjtc 7 7) ∧
    decode 0x31001F01FFFF = .command (.ringwr 7 3 131071) ∧
    decode 0x400003FFFFFF = .command (.crc8 3 0xFF 0xFF 0xFF) := by decide

theorem test_encode_examples :
    encode (.wrreg 3 0x02 0x7400) = 0x010302007400 ∧ encode (.ringwr 1 0 47704) = 0x31000400BA58 ∧
    encode (.getobjtc 1 2) = 0x220108000000 ∧ encode (.crc8 2 0xBE 0xEF 0) = 0x400002BEEF00 := by decide

/-- The host's two questions, on the row of WRREG and with a number that is too large for the row's bits. -/
theorem test_table_word :
    decodeTableWord 48 0x010302007400 = some (.wrreg 3 0x02 0x7400) ∧ decodeTableWord 48 0 = none ∧
    decodeTableWord 48 (2 ^ 48 + 0x500000000000) = some .shtinit := by decide

theorem test_withFetchWord_runs_the_word :
    (nextOf (step (State.reset.withFetchWord 48 0x31000400BA58))).map (fun t => (t.ring 1).h0) = some 47704 := by decide

/-! ## WellFormed: each check refuses an ill-formed term -/

theorem test_wellFormed_accepts_boundaries :
    [Line.mk .WRREG [63, 255, 65535], ⟨.SETMODE, [0, powerDown]⟩, ⟨.SETMODE, [0, continuous]⟩, ⟨.SETRATE, [0, rate025]⟩,
      ⟨.RINGWR, [7, 3, 131071]⟩, ⟨.CRC8, [3, 255, 255, 255]⟩, ⟨.SHTINIT, []⟩].all Line.wellFormed = true := by decide

/-- One line for each field of R94 whose number does not fit, and one for each wrong operand count. -/
theorem test_wellFormed_refuses :
    [Line.mk .GETAMB [64], ⟨.RDREG, [0, 256]⟩, ⟨.WRREG, [0, 0, 65536]⟩, ⟨.SETMODE, [0, 8]⟩, ⟨.SETDRDYEN, [0, 2]⟩,
      ⟨.GETOBJTC, [0, 8]⟩, ⟨.RINGRD, [0, 4]⟩, ⟨.RINGWR, [0, 0, 131072]⟩, ⟨.CRC8, [4, 0, 0, 0]⟩, ⟨.CRCCHK, [0, 0, 256]⟩,
      ⟨.SHTINIT, [0]⟩, ⟨.GETAMB, []⟩, ⟨.RINGWR, [0, 0]⟩].all (fun l => !l.wellFormed && l.assemble.isNone) = true := by
  decide

/-! ## Commands -/

/-- Vectors V10 and V13. -/
theorem test_wrreg :
    run State.reset 0x010302007400 [okAnswer true] = some ((0, 0, 0), [.write 0x43 [0x02, 0x74, 0x00] 3]) ∧
    run State.reset 0x010700000001 [okAnswer false] = some ((0, 0, 0), [.write 0x47 [0x00, 0x00, 0x01] 3]) := by decide

/-- Vectors V11 and V14. -/
theorem test_rdreg :
    run State.reset 0x0201FE000000 [bytesAnswer 0x12 0x34] = some ((0, 0x1234, 0), [.comboRead 0x41 [0xFE] 1 2]) ∧
    run State.reset 0x023F01000000 [bytesAnswer 0 0] = some ((0, 0, 0), [.comboRead 0x7F [0x01] 1 2]) := by decide

/-- Vector V16. -/
theorem test_swrst : run State.reset 0x100000000000 [bytesAnswer 0x74 0x00, okAnswer true] =
    some ((0, 0, 0), [.comboRead 0x40 [0x02] 1 2, .write 0x40 [0x02, 0xF4, 0x00] 3]) := by decide

/-- Vector V16: the mode field is replaced, and the requests go to instance 5. -/
theorem test_setmode :
    run State.reset 0x120000000000 [bytesAnswer 0xFF 0xFF, okAnswer true] =
      some ((0, 0, 0), [.comboRead 0x40 [0x02] 1 2, .write 0x40 [0x02, 0x8F, 0xFF] 3]) ∧
    run State.reset 0x120500000007 [bytesAnswer 0x00 0x00, okAnswer true] =
      some ((0, 0, 0), [.comboRead 0x45 [0x02] 1 2, .write 0x45 [0x02, 0x70, 0x00] 3]) := by decide

/-- Vectors V12 and V16. -/
theorem test_setrate :
    run State.reset 0x140000000004 [bytesAnswer 0xFF 0xFF, okAnswer true] =
      some ((0, 0, 0), [.comboRead 0x40 [0x02] 1 2, .write 0x40 [0x02, 0xF9, 0xFF] 3]) ∧
    run State.reset 0x140000000007 [bytesAnswer 0x00 0x00, okAnswer true] =
      some ((0, 0, 0), [.comboRead 0x40 [0x02] 1 2, .write 0x40 [0x02, 0x0E, 0x00] 3]) := by decide

/-- Vector V16. -/
theorem test_setdrdyen :
    run State.reset 0x160000000001 [bytesAnswer 0x74 0x00, okAnswer true] =
      some ((0, 0, 0), [.comboRead 0x40 [0x02] 1 2, .write 0x40 [0x02, 0x75, 0x00] 3]) ∧
    run State.reset 0x160000000000 [bytesAnswer 0xFF 0xFF, okAnswer true] =
      some ((0, 0, 0), [.comboRead 0x40 [0x02] 1 2, .write 0x40 [0x02, 0xFE, 0xFF] 3]) := by decide

/-- Vector V16: the write is issued though the bit is clear already. -/
theorem test_clrdrdy :
    run State.reset 0x180000000000 [bytesAnswer 0x74 0x80, okAnswer true] =
      some ((0, 0, 0), [.comboRead 0x40 [0x02] 1 2, .write 0x40 [0x02, 0x74, 0x00] 3]) ∧
    run State.reset 0x180000000000 [bytesAnswer 0x74 0x00, okAnswer true] =
      some ((0, 0, 0), [.comboRead 0x40 [0x02] 1 2, .write 0x40 [0x02, 0x74, 0x00] 3]) := by decide

/-- Vector V17: the four getters on the answers 0x7580 and 0x8A7F. -/
theorem test_getters :
    [0x110000000000#48, 0x130000000000#48, 0x150000000000#48, 0x170000000000#48].map
      (fun w => (run State.reset w [bytesAnswer 0x75 0x80]).map (·.1.2.1)) = [some 7, some 2, some 1, some 1] ∧
    [0x110000000000#48, 0x130000000000#48, 0x150000000000#48, 0x170000000000#48].map
      (fun w => (run State.reset w [bytesAnswer 0x8A 0x7F]).map (·.1.2.1)) = [some 0, some 5, some 0, some 0] := by decide

/-- Vector V9. -/
theorem test_identification :
    run State.reset 0x190000000000 [bytesAnswer 0x54 0x49] = some ((0, 0x5449, 0), [.comboRead 0x40 [0xFE] 1 2]) ∧
    run State.reset 0x1A0000000000 [bytesAnswer 0x00 0x67] = some ((0, 0x67, 0), [.comboRead 0x40 [0xFF] 1 2]) := by decide

/-- Vectors V1 and V18. -/
theorem test_getamb :
    run State.reset 0x200000000000 [bytesAnswer 0x0C 0x93] = some ((0, 0x324, 0), [.comboRead 0x40 [0x01] 1 2]) ∧
    run State.reset 0x200000000000 [bytesAnswer 0x80 0x00] = some ((0, 0xFFFFE000, 0), [.comboRead 0x40 [0x01] 1 2]) := by
  decide

/-- Vector V19. -/
theorem test_getobj :
    run State.reset 0x210000000000 [bytesAnswer 0x0C 0x90, bytesAnswer 0x80 0x00] =
      some ((0, 0xBA6C, 0xFFC18000), [.comboRead 0x40 [0x01] 1 2, .comboRead 0x40 [0x00] 1 2]) ∧
    run State.reset 0x210000000000 [bytesAnswer 0x7F 0xFF, bytesAnswer 0x00 0x01] =
      some ((0, 0x14AB3, 0x7D), [.comboRead 0x40 [0x01] 1 2, .comboRead 0x40 [0x00] 1 2]) := by decide

/-- Vector V21. -/
theorem test_getobjtc_warm :
    (present (withRing ⟨47699, 47704, 47709, 47714⟩) 0x220000000000 [bytesAnswer 0x0C 0x8C, bytesAnswer 0xFF 0x38]).map
      (fun t => (response t, t.ring 0)) = some ((0, 0xBA67, 0xFFFFBB40), ⟨47704, 47709, 47714, 47719⟩) := by decide

/-- Vector V27: the command at the extreme of the slope. -/
theorem test_getobjtc_extreme :
    (present (withRing ⟨0, 131071, 131071, 0⟩) 0x220000000000 [bytesAnswer 0x80 0x00, bytesAnswer 0x80 0x00]).map
      (fun t => (response t, t.ring 0)) = some ((0, 0x0AB8, 0xFB341970), ⟨131071, 131071, 0, 2744⟩) := by decide

/-- Vector V20. -/
theorem test_ring_access :
    (present State.reset 0x31001F01FFFF []).map (fun t => (response t, t.ring 7, t.ring 6)) =
      some ((0, 0, 0), ⟨0, 0, 0, 131071⟩, ⟨0, 0, 0, 0⟩) ∧
    run (withRing ⟨1, 2, 3, 4⟩) 0x300002000000 [] = some ((0, 3, 0), []) ∧
    (present (withRing ⟨1, 2, 3, 4⟩) 0x320000000000 []).map (fun t => (response t, t.ring 0)) =
      some ((0, 0, 0), ⟨0, 0, 0, 0⟩) := by decide

/-- Vector V28. -/
theorem test_crc_table :
    crc [] 0 = 0xFF ∧ crc [0x00] 1 = 0xAC ∧ crc [0xFF] 1 = 0x00 ∧ crc [0xBE, 0xEF, 0x92] 3 = 0x00 ∧
    crc [0x00, 0x00] 2 = 0x81 ∧ crc [0x12, 0x34] 2 = 0x37 ∧ crc [0x64, 0x4C] 2 = 0x17 := by decide

/-- Vector V29. -/
theorem test_crc8 :
    [0x400000AABBCC#48, 0x400001BEEF92#48, 0x400002BEEF55#48, 0x400003BEEF92#48].map (fun w => run State.reset w []) =
      [some ((0, 0xFF, 0), []), some ((0, 0x0C, 0), []), some ((0, 0x92, 0), []), some ((0, 0x00, 0), [])] := by decide

/-- Vector V30. -/
theorem test_crcchk :
    run State.reset 0x410000BEEF92 [] = some ((0, 0x92, 0), []) ∧
    run State.reset 0x410000000000 [] = some ((0xFB, 0, 0), []) := by decide

/-- Vector V35. -/
theorem test_shtinit :
    (present State.reset 0x500000000000 [okAnswer false]).map (fun t => (response t, t.sessErr, t.requests)) =
      some ((0xFF, 0, 0), 0xFF, [.devOpen]) ∧
    (present State.reset 0x500000000000 [okAnswer true, okAnswer false]).map
      (fun t => (response t, t.sessErr, t.requests)) = some ((0xFE, 0, 0), 0xFE, [.devOpen, .devSelect 0x44]) ∧
    (present State.reset 0x500000000000 [okAnswer true, okAnswer true]).map (fun t => (response t, t.sessErr)) =
      some ((0, 0, 0), 0) := by decide

/-- Vectors V33 and V4. -/
theorem test_shttemp :
    run session 0x510000000000 [countAnswer 2, frameAnswer 6 ⟨0x61, 0x21, 0x97, 0x5E, 0xB8, 0x0D⟩] =
      some ((0, 0x1565BC, 0), [.devWrite [0x2C, 0x06] 2, .devRead 6]) ∧
    run session 0x510000000000 [countAnswer 2, frameAnswer 6 ⟨0x66, 0x67, 0x93, 0x66, 0x66, 0x93⟩] =
      some ((0xFB, 0, 0), [.devWrite [0x2C, 0x06] 2, .devRead 6]) := by decide

/-- Vectors V33 and V32. -/
theorem test_shthum :
    run session 0x520000000000 [countAnswer 2, frameAnswer 6 ⟨0x61, 0x21, 0x97, 0x5E, 0xB8, 0x0D⟩] =
      some ((0, 0x24FFE0, 0), [.devWrite [0x2C, 0x06] 2, .devRead 6]) ∧
    run session 0x520000000000 [countAnswer 2, frameAnswer 6 ⟨0x66, 0x66, 0x93, 0x66, 0x66, 0x00⟩] =
      some ((0xFB, 0, 0), [.devWrite [0x2C, 0x06] 2, .devRead 6]) := by decide

/-- Vectors V34 to V36: the wrong counts, and a session that is not usable. -/
theorem test_measurement_errors :
    run session 0x510000000000 [countAnswer 0xFF] = some ((0xFD, 0, 0), [.devWrite [0x2C, 0x06] 2]) ∧
    run session 0x520000000000 [countAnswer 2, frameAnswer 7 ⟨0x66, 0x66, 0x93, 0x66, 0x66, 0x93⟩] =
      some ((0xFC, 0, 0), [.devWrite [0x2C, 0x06] 2, .devRead 6]) ∧
    run State.reset 0x510000000000 [countAnswer 1] = some ((0xFF, 0, 0), []) := by decide

/-- Vector V37 and program P5. -/
theorem test_illegal_word :
    (present (withRing ⟨1, 2, 3, 4⟩) 0x220001000000 [bytesAnswer 1 2]).map
      (fun t => (response t, t.ring 0, t.requests, t.answers)) =
      some ((0x80, 0, 0), ⟨1, 2, 3, 4⟩, [], [bytesAnswer 1 2]) := by decide

/-- Program P4: with one answer the setter waits with the word to be written on the port; the second step ends it. -/
theorem test_setter_waits_between_its_requests :
    (present State.reset 0x140000000004 [bytesAnswer 0x74 0x00]).map (fun t => (t.busy, t.useq, t.t0, t.port)) =
      some (true, 1, 0x7400, some (.write 0x40 [0x02, 0x78, 0x00] 3)) ∧
    ((present State.reset 0x140000000004 [bytesAnswer 0x74 0x00]).bind
      (fun t => nextOf (step { t with answers := [okAnswer true] }))).map (fun t => (t.busy, t.port, response t)) =
      some (false, none, (0, 0, 0)) := by decide

/-- Vector V40: a GETOBJTC that had shifted its ring is abandoned. -/
theorem test_reset_abandons_a_command :
    ((present (withRing ⟨1, 2, 3, 4⟩) 0x220000000000 [bytesAnswer 0x0C 0x8C]).map (fun t => (t.busy, (t.ring 0).h3))) =
      some (true, 47719) ∧
    ((present (withRing ⟨1, 2, 3, 4⟩) 0x220000000000 [bytesAnswer 0x0C 0x8C]).bind
      (fun t => nextOf (step { t with rst := true }))).map (fun t => (t.busy, t.rspValid, t.ring 0, t.port)) =
      some (false, false, ⟨0, 0, 0, 0⟩, none) := by decide

/-! ## Witnesses: the hypotheses of each obligation, met together by concrete states and operands -/

/-- A block that waits for the second answer of `SETRATE 0, 4` (program P4, after step 2). -/
def waitingSetter : State :=
  { State.reset with
    busy := true, cur := 0x140000000004, useq := 1, t0 := 0x7400, port := some (.write 0x40 [0x02, 0x78, 0x00] 3)
    requests := [.comboRead 0x40 [0x02] 1 2, .write 0x40 [0x02, 0x78, 0x00] 3] }

/-- A resumed command with one answer: `USEQ` at its largest value, nothing on the port. -/
def resumed (a : Answer) : State := { State.reset with busy := true, useq := 7, answers := [a] }

theorem witness_LegalWordIsTheEncodingOfItsCommand :
    decode 0x013FFF00FFFF = .command (.wrreg 63 0xFF 0xFFFF) ∧ decode 0x520000000000 = .command .shthum := by decide

theorem witness_IllegalWordAnswersMinus128 :
    (let s : State := { State.reset with cmds := [0x000000000000, 0x500000000000] }
     s.rst = false ∧ s.busy = false ∧ s.cmds = 0x000000000000 :: [0x500000000000] ∧
     decode 0x000000000000 = .illegal .unassignedOpcode) ∧
    (let s : State := { State.reset with cmds := [0x500000000001] }
     s.rst = false ∧ s.busy = false ∧ s.cmds = 0x500000000001 :: [] ∧
     decode 0x500000000001 = .illegal .reservedBitSet) := by decide

theorem witness_StepRunsTheDecodedCommand :
    (let s : State := { State.reset with cmds := [0x500000000000] }
     s.rst = false ∧ s.busy = false ∧ s.cmds = 0x500000000000 :: [] ∧ decode 0x500000000000 = .command .shtinit) ∧
    (waitingSetter.rst = false ∧ waitingSetter.busy = true ∧ decode waitingSetter.cur = .command (.setrate 0 4)) ∧
    (State.reset.rst = false ∧ State.reset.busy = false ∧ State.reset.cmds = []) := by decide

theorem witness_BusyBlockIgnoresTheCommandPort : waitingSetter.rst = false ∧ waitingSetter.busy = true := by decide

/-- A step that delivers a response, and one that does not. -/
theorem witness_ResponseRegistersHoldUntilTheNextResponse :
    (∃ t, step { State.reset with cmds := [0x320000000000] } = .next t ∧ t.rspValid = true) ∧
    (∃ t, step { waitingSetter with status := 0x80 } = .next t ∧ t.rspValid = false) ∧
    State.reset.rst = false ∧ waitingSetter.rst = false := ⟨⟨_, rfl, by decide⟩, ⟨_, rfl, by decide⟩, by decide⟩

theorem witness_ErrorResponsesCarryZeroResults :
    ∃ t, step { State.reset with cmds := [0x510000000000] } = .next t ∧ t.rspValid = true ∧ t.status ≠ 0 :=
  ⟨_, rfl, by decide⟩

theorem witness_RstWinsInEveryState : ({ waitingSetter with rst := true } : State).rst = true := by decide

/-- An idle state, a waiting one, and an idle one after an error meet the invariant, and each takes a step. -/
theorem witness_EveryStepKeepsTheInvariant :
    BlockInv { State.reset with cmds := [0x500000000000] } = true ∧ BlockInv waitingSetter = true ∧
    BlockInv { State.reset with status := 0x80, cmds := [0x510000000000] } = true ∧
    (nextOf (step { State.reset with cmds := [0x500000000000] })).isSome = true ∧
    (nextOf (step waitingSetter)).isSome = true := by decide

theorem witness_TheOutsideKeepsTheInvariant :
    BlockInv waitingSetter = true ∧
    InputChange waitingSetter { waitingSetter with rst := true, cmds := [1, 2], answers := [okAnswer true] } :=
  ⟨by decide, rfl⟩

theorem witness_ReachableStatesMeetTheInvariant : Reachable { State.reset with cmds := [0x510000000000] } :=
  .input .reset rfl

/-- A command that ends with status 0 and both answers used, one that ends with an error after one of two, one that waits
with none used, and one that waits with one used. -/
theorem witness_CommandsFollowTheirSchedule :
    (fresh [bytesAnswer 1 2, okAnswer true]).Starting ∧
    (∃ t, exec (.setrate 0 4) (fresh [bytesAnswer 1 2, okAnswer true]) = .next t ∧ t.busy = false ∧ t.status = 0) ∧
    (∃ t, exec .shtinit (fresh [okAnswer false, okAnswer true]) = .next t ∧ t.busy = false ∧ t.status ≠ 0 ∧
      t.answers = [okAnswer true]) ∧
    (fresh []).Starting ∧ (∃ t, exec (.setrate 0 4) (fresh []) = .next t ∧ t.busy = true ∧ t.useq = 0) ∧
    (fresh [bytesAnswer 1 2]).Starting ∧
    (∃ t, exec (.setrate 0 4) (fresh [bytesAnswer 1 2]) = .next t ∧ t.busy = true ∧ t.useq = 1) :=
  ⟨⟨rfl, rfl, rfl⟩, ⟨_, rfl, by decide⟩, ⟨_, rfl, by decide⟩, ⟨rfl, rfl, rfl⟩, ⟨_, rfl, by decide⟩, ⟨rfl, rfl, rfl⟩,
    ⟨_, rfl, by decide⟩⟩

theorem witness_OnlyTheSixRequestFormsAreIssued :
    ∃ t, exec .shtinit (fresh [okAnswer true]) = .next t ∧ t.requests = [.devOpen, .devSelect 0x44] :=
  ⟨_, rfl, by decide⟩

/-- No request, exactly as many answers as requests, and one more. -/
theorem witness_AnsweredCommandsEnd :
    (fresh []).Starting ∧ (scheduled (fresh []).t0 (.ringclr 7)).length ≤ (fresh []).answers.length ∧
    (scheduled 0 (.getobj 0)).length ≤ (fresh [bytesAnswer 1 2, bytesAnswer 3 4]).answers.length ∧
    (scheduled 0 (.getamb 0)).length ≤ (fresh [bytesAnswer 1 2, bytesAnswer 3 4]).answers.length :=
  ⟨⟨rfl, rfl, rfl⟩, by decide⟩

theorem witness_UnansweredRequestHoldsTheBlock :
    BlockInv waitingSetter = true ∧ waitingSetter.rst = false ∧ waitingSetter.busy = true ∧ waitingSetter.answers = [] := by
  decide

/-- GETOBJTC waits after no answer and after one. -/
theorem witness_AnswersMayComeOneAtATime :
    (fresh []).Starting ∧
    (∃ m, exec (.getobjtc 0 0) { fresh [] with answers := [] } = .next m ∧ m.busy = true) ∧
    (∃ m, exec (.getobjtc 0 0) { fresh [] with answers := [bytesAnswer 0x0C 0x8C] } = .next m ∧ m.busy = true) :=
  ⟨⟨rfl, rfl, rfl⟩, ⟨_, rfl, by decide⟩, ⟨_, rfl, by decide⟩⟩

/-- Each of the four writers of ring 0 changes it. -/
theorem witness_RingsChangeOnlyByTheirFourWriters :
    (∃ t, step { withRing ⟨1, 2, 3, 4⟩ with rst := true } = .next t ∧ t.ring 0 ≠ (withRing ⟨1, 2, 3, 4⟩).ring 0) ∧
    (∃ t, step { withRing ⟨1, 2, 3, 4⟩ with cmds := [0x220000000000], answers := [bytesAnswer 0x0C 0x8C] } = .next t ∧
      t.ring 0 ≠ (withRing ⟨1, 2, 3, 4⟩).ring 0) ∧
    (∃ t, step { withRing ⟨1, 2, 3, 4⟩ with cmds := [0x31000300BA58] } = .next t ∧
      t.ring 0 ≠ (withRing ⟨1, 2, 3, 4⟩).ring 0) ∧
    (∃ t, step { withRing ⟨1, 2, 3, 4⟩ with cmds := [0x320000000000] } = .next t ∧
      t.ring 0 ≠ (withRing ⟨1, 2, 3, 4⟩).ring 0) :=
  ⟨⟨_, rfl, by decide⟩, ⟨_, rfl, by decide⟩, ⟨_, rfl, by decide⟩, ⟨_, rfl, by decide⟩⟩

/-- SHTINIT changes SESS_ERR, reset changes it, and a measurement meets a session that is not usable. -/
theorem witness_SessionRegisterDiscipline :
    (∃ t, step { State.reset with cmds := [0x500000000000], answers := [okAnswer true, okAnswer false] } = .next t ∧
      t.sessErr ≠ State.reset.sessErr) ∧
    (∃ t, step { session with rst := true } = .next t ∧ t.sessErr ≠ session.sessErr) ∧
    (session.sessErr = 0 ∧ State.reset.sessErr = -1 ∧ ({ session with sessErr := -2 } : State).sessErr = -2) ∧
    (fresh []).Starting ∧ (fresh []).sessErr ≠ 0 :=
  ⟨⟨_, rfl, by decide⟩, ⟨_, rfl, by decide⟩, by decide, ⟨rfl, rfl, rfl⟩, by decide⟩

/-- T0 is written by each kind of command that may, and FR by both that may. -/
theorem witness_CommandsWriteOnlyTheirOwnRegisters :
    (∃ t, exec (.swrst 0) (fresh [bytesAnswer 1 2]) = .next t ∧ t.t0 ≠ (fresh []).t0) ∧
    (∃ t, exec (.getobj 0) (fresh [bytesAnswer 1 2]) = .next t ∧ t.t0 ≠ (fresh []).t0) ∧
    (∃ t, exec (.getobjtc 0 0) (fresh [bytesAnswer 1 2]) = .next t ∧ t.t0 ≠ (fresh []).t0) ∧
    (∃ t, exec .shttemp { session with answers := [countAnswer 2, frameAnswer 6 ⟨1, 2, 3, 4, 5, 6⟩] } = .next t ∧
      t.fr ≠ session.fr) ∧
    (∃ t, exec .shthum { session with answers := [countAnswer 2, frameAnswer 5 ⟨1, 2, 3, 4, 5, 6⟩] } = .next t ∧
      t.fr ≠ session.fr) :=
  ⟨⟨_, rfl, by decide⟩, ⟨_, rfl, by decide⟩, ⟨_, rfl, by decide⟩, ⟨_, rfl, by decide⟩, ⟨_, rfl, by decide⟩⟩

theorem witness_HistoryReachesCommandsOnlyThroughSessionAndRings :
    let s := fresh [bytesAnswer 1 2]
    let s' : State := { s with status := 0x80, res0 := 5, cur := 1, t0 := 7, t1 := 8, fr := ⟨1, 2, 3, 4, 5, 6⟩, draws := 9 }
    s.Starting ∧ s'.Starting ∧ s.sessErr = s'.sessErr ∧ s.rings = s'.rings ∧ s.answers = s'.answers :=
  ⟨⟨rfl, rfl, rfl⟩, ⟨rfl, rfl, rfl⟩, rfl, rfl, rfl⟩

theorem witness_FamiliesShareNoState :
    ((∀ id r, Instr.shttemp ≠ .getobjtc id r) ∧ (∀ r x, Instr.shttemp ≠ .ringrd r x) ∧
      (∀ r x v, Instr.shttemp ≠ .ringwr r x v) ∧ ∀ r, Instr.shttemp ≠ .ringclr r) ∧
    Instr.getobjtc 0 0 ≠ .shtinit ∧ Instr.getobjtc 0 0 ≠ .shttemp ∧ Instr.getobjtc 0 0 ≠ .shthum := by simp

theorem witness_TransportFailuresNeverSurface :
    (∀ b0 b1 c, Instr.wrreg 0 2 0 ≠ .crcchk b0 b1 c) ∧ Instr.wrreg 0 2 0 ≠ .shtinit ∧ Instr.wrreg 0 2 0 ≠ .shttemp ∧
    Instr.wrreg 0 2 0 ≠ .shthum ∧ (fresh [okAnswer false]).busy = true ∧
    ∃ t, exec (.wrreg 0 2 0) (fresh [okAnswer false]) = .next t ∧ t.busy = false :=
  ⟨by simp, by decide, by decide, by decide, rfl, _, rfl, by decide⟩

theorem witness_WrregWritesOneFrame : (fresh [okAnswer false]).answers = okAnswer false :: [] := rfl

/-- All eight commands of the shape, with the answer there. -/
theorem witness_SingleReadCommandsAnswerTheirField :
    [Instr.rdreg 63 0xFF, .getmode 0, .getrate 0, .getdrdyen 0, .getdrdy 0, .getmfgid 0, .getdevid 0, .getamb 63].all
      (fun i => (singleRead i).isSome) = true ∧
    (fresh [bytesAnswer 0xFF 0xFF]).answers = bytesAnswer 0xFF 0xFF :: [] := ⟨rfl, rfl⟩

/-- All five setters, with two answers, with one, and resumed. -/
theorem witness_SettersReadThenWrite :
    [Instr.swrst 63, .setmode 0 7, .setrate 0 7, .setdrdyen 0 1, .clrdrdy 0].all (fun i => (setter i).isSome) = true ∧
    ((fresh [bytesAnswer 1 2, okAnswer true]).useq = 0 ∧
      (fresh [bytesAnswer 1 2, okAnswer true]).answers = bytesAnswer 1 2 :: okAnswer true :: []) ∧
    ((fresh [bytesAnswer 1 2]).useq = 0 ∧ (fresh [bytesAnswer 1 2]).answers = [bytesAnswer 1 2]) ∧
    ((resumed (okAnswer true)).useq ≠ 0 ∧ (resumed (okAnswer true)).answers = okAnswer true :: []) := by decide

/-- A setter with two answers, with one, and resumed, and the bits next to its field on both sides. -/
theorem witness_SettersPreserveBitsOutsideTheField :
    (setter (.setrate 0 7)).map (fun x => (x.1, x.2.1)) = some (0, 0x0E00) ∧
    ((fresh [bytesAnswer 1 2, okAnswer true]).useq = 0 ∧
      (fresh [bytesAnswer 1 2, okAnswer true]).answers = bytesAnswer 1 2 :: okAnswer true :: []) ∧
    ((fresh [bytesAnswer 1 2]).useq = 0 ∧ (fresh [bytesAnswer 1 2]).answers = [bytesAnswer 1 2]) ∧
    ((resumed (okAnswer true)).useq ≠ 0 ∧ (resumed (okAnswer true)).port = none ∧
      (resumed (okAnswer true)).answers = okAnswer true :: []) ∧
    ((setter (.setrate 0 4)).map (fun x => (x.1, x.2.1)) = some (0, 0x0E00) ∧ BlockInv waitingSetter = true ∧
      waitingSetter.busy = true ∧ decode waitingSetter.cur = .command (.setrate 0 4) ∧ waitingSetter.useq ≠ 0 ∧
      waitingSetter.answers = []) ∧
    (let s : State := { waitingSetter with answers := [okAnswer true] }
     BlockInv s = true ∧ s.busy = true ∧ decode s.cur = .command (.setrate 0 4) ∧ s.useq ≠ 0 ∧ s.answers ≠ []) ∧
    BitVec.getLsbD (0x0E00 : Reg16) 8 = false ∧ BitVec.getLsbD (0x0E00 : Reg16) 12 = false := by decide

/-- Each field with the largest value that fits it, and another field beside it. -/
theorem witness_FieldWritesRoundTrip :
    ((0x8000 : Reg16), 15, 1) ∈ configFields ∧ (1 : Reg16).toNat < 2 ^ 1 ∧
    ((0x7000 : Reg16), 12, 3) ∈ configFields ∧ (7 : Reg16).toNat < 2 ^ 3 ∧
    ((0x0E00 : Reg16), 9, 3) ∈ configFields ∧ ((0x0100 : Reg16), 8, 1) ∈ configFields ∧
    ((0x0080 : Reg16), 7, 1) ∈ configFields ∧ ((0x0100 : Reg16), 8, 1) ≠ ((0x0E00 : Reg16), 9, 3) := by decide

theorem witness_WrittenBytesReadBackAsTheValue :
    (fresh [okAnswer true]).port = none ∧ (fresh [okAnswer true]).answers = okAnswer true :: [] ∧
    (fresh [bytesAnswer 0xA5 0x5A]).answers = bytesAnswer 0xA5 0x5A :: [] ∧
    (∃ t, exec (.wrreg 2 0x02 0xA55A) (fresh [okAnswer true]) = .next t ∧ t.requests = [.write 0x42 [0x02, 0xA5, 0x5A] 3]) ∧
    (bytesAnswer 0xA5 0x5A).bytes.b0 = 0xA5 ∧ (bytesAnswer 0xA5 0x5A).bytes.b1 = 0x5A :=
  ⟨rfl, rfl, rfl, ⟨_, rfl, by decide⟩, rfl, rfl⟩

/-- Two register values that differ in the low two bits alone. -/
theorem witness_DieCodeIsTheTopFourteenBits :
    (0x7FFF : Reg16).extractLsb' 2 14 = (0x7FFC : Reg16).extractLsb' 2 14 ∧ 0 < 14 ∧ 13 < 14 := by decide

theorem witness_GetobjAnswersTemperatureAndVoltage :
    ((fresh [bytesAnswer 1 2, bytesAnswer 3 4]).useq = 0 ∧
      (fresh [bytesAnswer 1 2, bytesAnswer 3 4]).answers = bytesAnswer 1 2 :: bytesAnswer 3 4 :: []) ∧
    ((fresh [bytesAnswer 1 2]).useq = 0 ∧ (fresh [bytesAnswer 1 2]).answers = [bytesAnswer 1 2]) ∧
    ((resumed (bytesAnswer 3 4)).useq ≠ 0 ∧ (resumed (bytesAnswer 3 4)).answers = bytesAnswer 3 4 :: []) := by decide

theorem witness_GetobjtcShiftsTheRingAndCorrects :
    ((fresh [bytesAnswer 1 2, bytesAnswer 3 4]).useq = 0 ∧
      (fresh [bytesAnswer 1 2, bytesAnswer 3 4]).answers = bytesAnswer 1 2 :: bytesAnswer 3 4 :: []) ∧
    ((fresh [bytesAnswer 1 2]).useq = 0 ∧ (fresh [bytesAnswer 1 2]).answers = [bytesAnswer 1 2]) ∧
    ((resumed (bytesAnswer 3 4)).useq ≠ 0 ∧ (resumed (bytesAnswer 3 4)).answers = bytesAnswer 3 4 :: []) := by decide

theorem witness_SlopeNumeratorIsTheWeightedSum :
    (SampleRing.mk 0 131071 131071 131071).h0 = 0 ∧ (SampleRing.mk 1 0 131071 131071).h0 ≠ 0 := by decide

theorem witness_ColdRingGivesTheUncorrectedVoltage :
    (fresh [bytesAnswer 1 2, bytesAnswer 3 4]).useq = 0 ∧
    (fresh [bytesAnswer 1 2, bytesAnswer 3 4]).answers = bytesAnswer 1 2 :: bytesAnswer 3 4 :: [] ∧
    ((fresh [bytesAnswer 1 2, bytesAnswer 3 4]).ring 7).h1 = 0 := by decide

theorem witness_CrcEightIsTheBitwiseChecksum : 0 < [(0xBE : Byte), 0xEF].length ∧ 1 < [(0xBE : Byte), 0xEF].length := by decide

theorem witness_ChecksumDetectsEverySingleBitFlip : 0 < 8 ∧ 7 < 8 := by decide

theorem witness_CrcCommandsAnswerTheChecksum : crc [0xBE, 0xEF] 2 = 0x92 ∧ crc [0xBE, 0xEE] 2 ≠ 0x92 := by decide

theorem witness_ShtinitRecordsItsOutcome :
    ((fresh [okAnswer false]).useq = 0 ∧ (fresh [okAnswer false]).answers = okAnswer false :: [] ∧
      (okAnswer false).ok = false) ∧
    ((fresh [okAnswer true, okAnswer false]).useq = 0 ∧
      (fresh [okAnswer true, okAnswer false]).answers = okAnswer true :: okAnswer false :: [] ∧ (okAnswer true).ok = true) ∧
    ((fresh [okAnswer true]).useq = 0 ∧ (fresh [okAnswer true]).answers = [okAnswer true]) ∧
    ((resumed (okAnswer true)).useq ≠ 0 ∧ (resumed (okAnswer true)).answers = okAnswer true :: []) := by decide

/-- The four errors: no session, a write count of 3, a read count of 7 at once, and one of 5 on a resumed command. -/
theorem witness_MeasurementErrorsComeInOrder :
    ((fresh []).useq = 0 ∧ (fresh []).port = none ∧ (fresh []).sessErr ≠ 0) ∧
    (let s : State := { session with answers := [countAnswer 3] }
     s.useq = 0 ∧ s.sessErr = 0 ∧ s.answers = countAnswer 3 :: [] ∧ (countAnswer 3).cnt ≠ 2) ∧
    (let s : State := { session with answers := [countAnswer 2, countAnswer 7] }
     s.useq = 0 ∧ s.sessErr = 0 ∧ s.answers = countAnswer 2 :: countAnswer 7 :: [] ∧ (countAnswer 2).cnt = 2 ∧
     (countAnswer 7).cnt ≠ 6) ∧
    ((resumed (countAnswer 5)).useq ≠ 0 ∧ (resumed (countAnswer 5)).answers = countAnswer 5 :: [] ∧
      (countAnswer 5).cnt ≠ 6) := by decide

/-- SHTTEMP at once and resumed, with a good temperature pair and with a bad one. -/
theorem witness_ShttempChecksAndDecodesItsPair :
    (let b := frameAnswer 6 ⟨0x66, 0x66, 0x93, 0, 0, 0⟩
     let s : State := { session with answers := [countAnswer 2, b] }
     b.cnt = 6 ∧ s.useq = 0 ∧ s.sessErr = 0 ∧ s.answers = countAnswer 2 :: b :: [] ∧ (countAnswer 2).cnt = 2 ∧
     crc [b.bytes.b0, b.bytes.b1] 2 = b.bytes.b2) ∧
    (let b := frameAnswer 6 ⟨0x66, 0x67, 0x93, 0, 0, 0⟩
     b.cnt = 6 ∧ (resumed b).useq ≠ 0 ∧ (resumed b).answers = b :: [] ∧
     crc [b.bytes.b0, b.bytes.b1] 2 ≠ b.bytes.b2) := by decide

/-- SHTHUM at once and resumed, with a good humidity pair and with a bad one. -/
theorem witness_ShthumChecksAndDecodesItsPair :
    (let b := frameAnswer 6 ⟨0, 0, 0, 0x66, 0x66, 0x93⟩
     let s : State := { session with answers := [countAnswer 2, b] }
     b.cnt = 6 ∧ s.useq = 0 ∧ s.sessErr = 0 ∧ s.answers = countAnswer 2 :: b :: [] ∧ (countAnswer 2).cnt = 2 ∧
     crc [b.bytes.b3, b.bytes.b4] 2 = b.bytes.b5) ∧
    (let b := frameAnswer 6 ⟨0, 0, 0, 0x66, 0x67, 0x93⟩
     b.cnt = 6 ∧ (resumed b).useq ≠ 0 ∧ (resumed b).answers = b :: [] ∧
     crc [b.bytes.b3, b.bytes.b4] 2 ≠ b.bytes.b5) := by decide

/-- The flipped bit of vector V4 (bit 0 of the second byte), and bit 7 of the first. -/
theorem witness_FlippedTemperatureBitGivesChecksumError :
    (let b := frameAnswer 6 ⟨0x66, 0x67, 0x93, 0x66, 0x66, 0x93⟩
     let s : State := { session with answers := [countAnswer 2, b] }
     s.useq = 0 ∧ s.sessErr = 0 ∧ s.answers = countAnswer 2 :: b :: [] ∧ (countAnswer 2).cnt = 2 ∧ b.cnt = 6 ∧ 0 < 8 ∧
     b.bytes.b2 = crc [0x66, 0x66] 2 ∧ b.bytes.b0 = 0x66 ∧ b.bytes.b1 = 0x66 ^^^ (1 <<< 0)) ∧
    (let b := frameAnswer 6 ⟨0xE6, 0x66, 0x93, 0x66, 0x66, 0x93⟩
     7 < 8 ∧ b.bytes.b2 = crc [0x66, 0x66] 2 ∧ b.bytes.b0 = 0x66 ^^^ (1 <<< 7) ∧ b.bytes.b1 = 0x66) := by decide

theorem witness_EachMeasurementReadsOnlyItsOwnPair :
    let b := frameAnswer 6 ⟨0x66, 0x66, 0x93, 0x66, 0x66, 0x93⟩
    let s : State := { session with answers := [countAnswer 2, b] }
    s.useq = 0 ∧ s.sessErr = 0 ∧ s.answers = countAnswer 2 :: b :: [] ∧ (countAnswer 2).cnt = 2 ∧
    (let b' := frameAnswer 6 ⟨0x66, 0x66, 0x93, 0, 0, 0⟩
     b'.cnt = b.cnt ∧ b'.bytes.b0 = b.bytes.b0 ∧ b'.bytes.b1 = b.bytes.b1 ∧ b'.bytes.b2 = b.bytes.b2) ∧
    (let b' := frameAnswer 6 ⟨0, 0, 0, 0x66, 0x66, 0x93⟩
     b'.cnt = b.cnt ∧ b'.bytes.b3 = b.bytes.b3 ∧ b'.bytes.b4 = b.bytes.b4 ∧ b'.bytes.b5 = b.bytes.b5) := by decide

/-- The extremes of the voltage code, of a ring's slope, and of the reading, that the range clauses speak of. -/
theorem witness_ranges :
    (vq 0x8000).toInt = -4096000 ∧ (vq 0x7FFF).toInt = 4095875 ∧ (k160 0x8000).toNat = 2744 ∧ (k160 0x7FFC).toNat = 84659 ∧
    correctedVoltage ⟨131071, 131071, 0, 0⟩ 0x8000 = -81690032 ∧ tempNumerator 0xFFFF = 8519550 ∧
    humNumerator 0xFFFF = 6553500 := by decide

end Sys2Proof.Tests
end

section
/-! PROOFS. The block invariant along every execution (spec/00_scope.md): `BlockInv` read as a proposition, the ends and
waits of a command that establish it, and from these one lemma per micro-sequence shape, per command and per step. -/

namespace Sys2Proof.Machine

/-! ## The invariant as a proposition -/

/-- The response registers hold a legal code, and zero results beside an error (R22, R23). -/
def ResponseLegal (s : State) : Prop := s.status ∈ statusCodes ∧ (s.status = 0 ∨ s.res0 = 0 ∧ s.res1 = 0)

/-- A measurement stands past its session test (R187). -/
def SessionUsable (i : Instr) (s : State) : Prop := needsSession i = true → s.sessErr = 0

/-- The request of `i`'s rule at `USEQ` stands on the port, as the last one issued (R61, R75). -/
structure Waiting (i : Instr) (s : State) : Prop where
  usable : SessionUsable i s
  request : ∃ r, s.port = some r ∧ (scheduled s.t0 i)[s.useq.toNat]? = some r ∧ s.requests.getLast? = some r

theorem waitingRight_iff (s : State) : waitingRight s = true ↔ ∃ i, decode s.cur = .command i ∧ SessionUsable i s ∧
    ∃ r, s.port = some r ∧ (scheduled s.t0 i)[s.useq.toNat]? = some r := by
  unfold waitingRight SessionUsable
  cases decode s.cur with
  | illegal why => simp
  | command i =>
    cases s.port with
    | none => simp
    | some r =>
      have hreq : some r = (scheduled s.t0 i)[s.useq.toNat]? ↔ (scheduled s.t0 i)[s.useq.toNat]? = some r := eq_comm
      have hses : (!needsSession i || s.sessErr == 0) = true ↔ (needsSession i = true → s.sessErr = 0) := by
        cases needsSession i <;> simp
      rw [Bool.and_eq_true, hses]
      simp [hreq, and_comm]

/-- The invariant by cases: an idle block at rest, or a busy one that waits. -/
theorem blockInv_iff (s : State) : BlockInv s = true ↔ ResponseLegal s ∧ s.sessErr ∈ sessionCodes ∧
    ((s.busy = false ∧ s.useq = 0 ∧ s.port = none) ∨
     (s.busy = true ∧ s.rspValid = false ∧ ∃ i, decode s.cur = .command i ∧ Waiting i s)) := by
  have hw : (∃ i, decode s.cur = .command i ∧ Waiting i s) ↔
      waitingRight s = true ∧ (s.port = none ∨ s.requests.getLast? = s.port) := by
    rw [waitingRight_iff]
    constructor
    · rintro ⟨i, hd, hu, r, hp, hs, hl⟩
      exact ⟨⟨i, hd, hu, r, hp, hs⟩, .inr (hl.trans hp.symm)⟩
    · rintro ⟨⟨i, hd, hu, r, hp, hs⟩, hl⟩
      exact ⟨i, hd, hu, r, hp, hs, by simpa [hp] using hl⟩
  cases hb : s.busy with
  | false =>
    have hport : s.port = none ∧ (s.port = none ∨ s.requests.getLast? = s.port) ↔ s.port = none :=
      and_iff_left_of_imp .inl
    simp [BlockInv, ResponseLegal, hb, hport, and_assoc]
  | true => simp [BlockInv, ResponseLegal, hb, hw, and_assoc, and_left_comm]

/-- No input is read by the invariant (R5, R62). -/
theorem blockInv_inputs (s : State) (rst : Bool) (cmds : List CmdWord) (answers : List Answer) :
    BlockInv { s with rst := rst, cmds := cmds, answers := answers } = BlockInv s := rfl

theorem reset_blockInv : BlockInv State.reset = true := by decide

theorem applyReset_blockInv (s : State) : BlockInv (applyReset s) = true :=
  (blockInv_iff _).2 ⟨⟨by simp [statusCodes], .inl rfl⟩, by simp [sessionCodes, eOpen], .inl ⟨rfl, rfl, rfl⟩⟩

theorem inputChange_blockInv {s t : State} (hs : BlockInv s = true) (h : InputChange s t) : BlockInv t = true := by
  unfold InputChange at h
  rw [h, blockInv_inputs]
  exact hs

/-! ## Where a command can end -/

/-- A response may be delivered here: nothing stands on the port, and SESS_ERR is legal. -/
structure Endable (s : State) : Prop where
  port : s.port = none
  session : s.sessErr ∈ sessionCodes

section
variable {s : State} (h : Endable s)
include h

theorem Endable.withFr (f : Frame) : Endable { s with fr := f } := ⟨h.port, h.session⟩

theorem Endable.withSessErr {c : Code} (hc : c ∈ sessionCodes) : Endable { s with sessErr := c } := ⟨h.port, hc⟩

theorem Endable.withRing (r : BitVec 3) (v : SampleRing) : Endable (State.setRing r v s) := ⟨h.port, h.session⟩

theorem Endable.deliver {code : Code} {r0 r1 : BitVec 32} (hc : code ∈ statusCodes)
    (hz : code = 0 ∨ r0 = 0 ∧ r1 = 0) : BlockInv (deliver code r0 r1 s) = true :=
  (blockInv_iff _).2 ⟨⟨hc, hz⟩, h.session, .inl ⟨rfl, rfl, h.port⟩⟩

theorem Endable.respond (r0 r1 : BitVec 32) : BlockInv (respond r0 r1 s) = true :=
  h.deliver (by decide) (.inl rfl)

theorem Endable.raiseE {code : Code} (hc : code ∈ statusCodes) : BlockInv (raiseE code s) = true :=
  h.deliver hc (.inr ⟨rfl, rfl⟩)

theorem decodeTemp_blockInv (f : Frame) : BlockInv (decodeTemp f s) = true := by
  unfold decodeTemp
  split
  · exact h.raiseE (by decide)
  · exact h.respond _ _

theorem decodeHum_blockInv (f : Frame) : BlockInv (decodeHum f s) = true := by
  unfold decodeHum
  split
  · exact h.raiseE (by decide)
  · exact h.respond _ _

theorem frameRead_blockInv {finish : Frame → State → State} (a : Answer)
    (hf : ∀ f u, Endable u → BlockInv (finish f u) = true) : BlockInv (frameRead finish a s) = true := by
  unfold frameRead
  split
  · exact (h.withFr _).raiseE (by decide)
  · exact hf _ _ (h.withFr _)

end

/-! ## A command on its way -/

/-- Command `i` is being executed: what holds between two requests, wherever it stands. -/
structure Running (i : Instr) (s : State) : Prop where
  cur : decode s.cur = .command i
  busy : s.busy = true
  silent : s.rspValid = false
  response : ResponseLegal s
  session : s.sessErr ∈ sessionCodes

/-- Command `i` stands at `USEQ = n` with nothing on the port, past the session test it may have. -/
structure Between (i : Instr) (n : BitVec 3) (s : State) : Prop extends Running i s where
  usable : SessionUsable i s
  useq : s.useq = n
  port : s.port = none

/-- Command `i` is where a step takes it up: accepted, or waiting for an answer. -/
structure Underway (i : Instr) (s : State) : Prop extends Running i s where
  place : (s.useq = 0 ∧ s.port = none) ∨ Waiting i s

/-- The next request of command `i`'s rule is `r`, which is not yet issued or stands on the port. -/
structure Ready (i : Instr) (r : Request) (s : State) : Prop extends Running i s where
  usable : SessionUsable i s
  scheduled : (scheduled s.t0 i)[s.useq.toNat]? = some r
  port : s.port = none ∨ s.port = some r ∧ s.requests.getLast? = some r

variable {i : Instr} {s t : State}

theorem Between.endable {n : BitVec 3} (h : Between i n s) : Endable s := ⟨h.port, h.session⟩

theorem Between.withT0 {n : BitVec 3} (h : Between i n s) (v : Reg16) : Between i n { s with t0 := v } :=
  ⟨⟨h.cur, h.busy, h.silent, h.response, h.session⟩, h.usable, h.useq, h.port⟩

theorem Between.withRing {n : BitVec 3} (h : Between i n s) (r : BitVec 3) (v : SampleRing) :
    Between i n (State.setRing r v s) :=
  ⟨⟨h.cur, h.busy, h.silent, h.response, h.session⟩, h.usable, h.useq, h.port⟩

theorem Ready.afterAnswer {r : Request} (h : Ready i r s) (rest : List Answer) :
    Between i (s.useq + 1) (afterAnswer s rest r) :=
  ⟨⟨h.cur, h.busy, h.silent, h.response, h.session⟩, h.usable, rfl, rfl⟩

theorem Ready.issue {r : Request} (h : Ready i r s) : BlockInv (issue r s) = true := by
  have hw : Waiting i (Machine.issue r s) := by
    refine ⟨by simpa [SessionUsable] using h.usable, r, ?_, by simpa using h.scheduled, ?_⟩
    · rcases h.port with hp | ⟨hp, _⟩ <;> simp [hp]
    · rcases h.port with hp | ⟨hp, hl⟩
      · simp [State.requestsWith, hp]
      · simp [State.requestsWith, hp, hl]
  refine (blockInv_iff _).2 ⟨?_, by simpa using h.session, .inr ⟨?_, ?_, i, ?_, hw⟩⟩
  · simpa [ResponseLegal] using h.response
  · simpa using h.busy
  · simpa using h.silent
  · simpa using h.cur

/-- A request of the rule either waits or goes on, one micro-step further. -/
theorem Ready.transact {r : Request} {next : Answer → State → State} (h : Ready i r s)
    (hn : ∀ a u, Between i (s.useq + 1) u → BlockInv (next a u) = true) : BlockInv (transact r next s) = true := by
  rcases transact_cases r next s with ⟨_, e⟩ | ⟨a, rest, _, e⟩
  · rw [e]; exact h.issue
  · rw [e]; exact hn a _ (h.afterAnswer rest)

/-! ## The micro-sequences -/

/-- A command whose rule has no request never waits. -/
theorem Underway.endable (h : Underway i s) (hs : scheduled s.t0 i = []) : Endable s := by
  rcases h.place with ⟨_, hp⟩ | ⟨_, r, _, hr, _⟩
  · exact ⟨hp, h.session⟩
  · simp [hs] at hr

/-- At `USEQ` 0 the next request is the first of the rule. -/
theorem Underway.ready_first {r : Request} {rs : List Request} (h : Underway i s) (hu : s.useq = 0)
    (hses : SessionUsable i s) (hs : scheduled s.t0 i = r :: rs) : Ready i r s := by
  refine ⟨h.toRunning, hses, by simp [hs, hu], ?_⟩
  rcases h.place with ⟨_, hp⟩ | ⟨_, q, hp, hq, hl⟩
  · exact .inl hp
  · obtain rfl : r = q := by simpa [hs, hu] using hq
    exact .inr ⟨hp, hl⟩

/-- A command resumed at a later `USEQ` waits for the second of its two requests, at `USEQ` 1. -/
theorem Underway.ready_second {r q : Request} (h : Underway i s) (hu : s.useq ≠ 0)
    (hs : scheduled s.t0 i = [r, q]) : Ready i q s := by
  rcases h.place with ⟨h0, _⟩ | ⟨hses, p, hp, hr, hl⟩
  · exact absurd h0 hu
  · have hne : s.useq.toNat ≠ 0 := fun e => hu (BitVec.eq_of_toNat_eq e)
    have hlt : s.useq.toNat < 2 := by simpa [hs] using (List.getElem?_eq_some_iff.1 hr).1
    have h1 : s.useq.toNat = 1 := by omega
    obtain rfl : q = p := by simpa [hs, h1] using hr
    exact ⟨h.toRunning, hses, hr, .inr ⟨hp, hl⟩⟩

/-- A command of one request, which needs no session. -/
theorem Underway.transact {r : Request} {next : Answer → State → State} (h : Underway i s)
    (hs : scheduled s.t0 i = [r]) (hns : needsSession i = false)
    (hn : ∀ a u, Endable u → BlockInv (next a u) = true) : BlockInv (transact r next s) = true := by
  have hu : s.useq = 0 := by
    rcases h.place with ⟨hu, _⟩ | ⟨_, q, _, hq, _⟩
    · exact hu
    · have hlt : s.useq.toNat < 1 := by simpa [hs] using (List.getElem?_eq_some_iff.1 hq).1
      exact BitVec.eq_of_toNat_eq (Nat.lt_one_iff.1 hlt)
  exact (h.ready_first hu (by simp [SessionUsable, hns]) hs).transact fun a u hb => hn a u hb.endable

theorem readAndRespond_blockInv {id : BitVec 6} {ptr : Byte} {f : Reg16 → BitVec 32} (h : Underway i s)
    (hs : scheduled s.t0 i = [rdReg (slaveOf id) ptr]) (hns : needsSession i = false) :
    BlockInv (readAndRespond id ptr f s) = true :=
  h.transact hs hns fun _ _ hu => hu.respond _ _

/-- A command of two requests, past its session test: what follows the first answer must end the command or leave it
at `USEQ` 1. -/
theorem Underway.twoRequests {first : Request} {mid : Answer → State → AfterFirst} {second : State → Request}
    {finish : Answer → State → State} (h : Underway i s) (hses : SessionUsable i s)
    (hs : ∀ u : State, scheduled u.t0 i = [first, second u])
    (hm : ∀ a u, Between i 1 u →
      (∃ v, mid a u = .stop v ∧ BlockInv v = true) ∨ ∃ v, mid a u = .goOn v ∧ Between i 1 v)
    (hf : ∀ a u, Endable u → BlockInv (finish a u) = true) :
    BlockInv (twoRequests first mid second finish s) = true := by
  have finishes : ∀ {v : State}, Ready i (second v) v → BlockInv (Machine.transact (second v) finish v) = true :=
    fun hv => hv.transact fun a u hb => hf a u hb.endable
  by_cases hu : s.useq = 0
  · have hfirst := h.ready_first hu hses (hs s)
    have hone : ∀ rest, Between i 1 (afterAnswer s rest first) := fun rest => by
      simpa [hu] using hfirst.afterAnswer rest
    rcases hans : s.answers with _ | ⟨a, rest⟩
    · rw [twoRequests_nil hu hans]; exact hfirst.issue
    · rcases hm a _ (hone rest) with ⟨v, e, hv⟩ | ⟨v, e, hv⟩
      · rw [twoRequests_stop hu hans e]; exact hv
      · rw [twoRequests_goOn hu hans e]
        exact finishes ⟨hv.toRunning, hv.usable, by simp [hs, hv.useq], .inl hv.port⟩
  · rw [twoRequests_resumed hu]
    exact finishes (h.ready_second hu (hs s))

theorem setField_blockInv {n : Nat} {id : BitVec 6} {m : Reg16} {lo : Nat} {v : BitVec n} (h : Underway i s)
    (hs : ∀ t0, scheduled t0 i = setterRequests id m lo v t0) (hns : needsSession i = false) :
    BlockInv (setField id m lo v s) = true :=
  h.twoRequests (by simp [SessionUsable, hns]) (fun u => hs u.t0)
    (fun _ _ hu => .inr ⟨_, rfl, hu.withT0 _⟩) (fun _ _ hu => hu.respond _ _)

theorem sessionCodes_subset_statusCodes : sessionCodes ⊆ statusCodes := by decide

theorem measure_blockInv {finish : Frame → State → State} (h : Underway i s) (hns : needsSession i = true)
    (hs : ∀ t0, scheduled t0 i = [.devWrite shtCmd 2, .devRead shtFrameLen])
    (hf : ∀ f u, Endable u → BlockInv (finish f u) = true) : BlockInv (measure finish s) = true := by
  by_cases hno : s.useq = 0 ∧ s.sessErr ≠ 0
  · obtain ⟨hu, hne⟩ := hno
    have hp : s.port = none := by
      rcases h.place with ⟨_, hp⟩ | hw
      · exact hp
      · exact absurd (hw.usable hns) hne
    rw [measure_noSession hu hne]
    exact Endable.raiseE ⟨hp, h.session⟩ (sessionCodes_subset_statusCodes h.session)
  · have hses : SessionUsable i s := fun _ => by
      rcases h.place with ⟨hu, _⟩ | hw
      · exact not_not.1 fun hne => hno ⟨hu, hne⟩
      · exact hw.usable hns
    rw [measure_twoRequests (.inr (hses hns))]
    refine h.twoRequests hses (fun u => hs u.t0) (fun a u hu => ?_) (fun a u hu => frameRead_blockInv hu a hf)
    split
    · exact .inl ⟨_, rfl, hu.endable.raiseE (by decide)⟩
    · exact .inr ⟨_, rfl, hu⟩

theorem execShtinit_blockInv (h : Underway .shtinit s) (he : execShtinit s = .next t) : BlockInv t = true := by
  cases he
  refine h.twoRequests (fun hn => nomatch hn) (fun _ => rfl) (fun a u hu => ?_) (fun b u hu => ?_)
  · split
    · exact .inr ⟨_, rfl, hu⟩
    · exact .inl ⟨_, rfl, (hu.endable.withSessErr (by decide)).raiseE (by decide)⟩
  · split
    · exact (hu.withSessErr (by decide)).respond _ _
    · exact (hu.withSessErr (by decide)).raiseE (by decide)

/-! ## Every command, every step -/

theorem exec_blockInv (h : Underway i s) (he : exec i s = .next t) : BlockInv t = true := by
  cases i with
  | wrreg => cases he; exact h.transact rfl rfl fun _ _ hu => hu.respond _ _
  | rdreg => cases he; exact readAndRespond_blockInv h rfl rfl
  | swrst => cases he; exact setField_blockInv h (fun _ => rfl) rfl
  | getmode => cases he; exact readAndRespond_blockInv h rfl rfl
  | setmode => cases he; exact setField_blockInv h (fun _ => rfl) rfl
  | getrate => cases he; exact readAndRespond_blockInv h rfl rfl
  | setrate => cases he; exact setField_blockInv h (fun _ => rfl) rfl
  | getdrdyen => cases he; exact readAndRespond_blockInv h rfl rfl
  | setdrdyen => cases he; exact setField_blockInv h (fun _ => rfl) rfl
  | getdrdy => cases he; exact readAndRespond_blockInv h rfl rfl
  | clrdrdy => cases he; exact setField_blockInv h (fun _ => rfl) rfl
  | getmfgid => cases he; exact readAndRespond_blockInv h rfl rfl
  | getdevid => cases he; exact readAndRespond_blockInv h rfl rfl
  | getamb => cases he; exact readAndRespond_blockInv h rfl rfl
  | getobj =>
    cases he
    exact h.twoRequests (fun hn => nomatch hn) (fun _ => rfl) (fun _ _ hu => .inr ⟨_, rfl, hu.withT0 _⟩)
      (fun _ _ hu => hu.respond _ _)
  | getobjtc _ ring =>
    cases he
    exact h.twoRequests (fun hn => nomatch hn) (fun _ => rfl)
      (fun a _ hu => .inr ⟨_, rfl, (hu.withT0 a.reg).withRing ring _⟩) (fun _ _ hu => hu.respond _ _)
  | ringrd => cases he; exact (h.endable rfl).respond _ _
  | ringwr => cases he; exact ((h.endable rfl).withRing _ _).respond _ _
  | ringclr => cases he; exact ((h.endable rfl).withRing _ _).respond _ _
  | crc8 => cases he; exact (h.endable rfl).respond _ _
  | crcchk =>
    cases he
    split
    · exact (h.endable rfl).raiseE (by decide)
    · exact (h.endable rfl).respond _ _
  | shtinit => exact execShtinit_blockInv h he
  | shttemp => cases he; exact measure_blockInv h rfl (fun _ => rfl) fun f _ hu => decodeTemp_blockInv hu f
  | shthum => cases he; exact measure_blockInv h rfl (fun _ => rfl) fun f _ hu => decodeHum_blockInv hu f

theorem dropRspValid_blockInv (hs : BlockInv s = true) : BlockInv (dropRspValid s) = true := by
  obtain ⟨hr, hc, hidle | ⟨hb, _, i, hd, hw⟩⟩ := (blockInv_iff s).1 hs
  · exact (blockInv_iff _).2 ⟨hr, hc, .inl hidle⟩
  · exact (blockInv_iff _).2 ⟨hr, hc, .inr ⟨hb, rfl, i, hd, hw.usable, hw.request⟩⟩

/-- A legal word in CUR is a command on its way. -/
theorem RunsFrom.underway {u : State} (hu : RunsFrom s u) (hs : BlockInv s = true) (hd : decode u.cur = .command i) :
    Underway i u := by
  obtain ⟨hr, hc, hplace⟩ := (blockInv_iff s).1 hs
  cases hu with
  | busy hb =>
    refine ⟨⟨hd, hb, rfl, hr, hc⟩, ?_⟩
    rcases hplace with ⟨hi, _⟩ | ⟨_, _, j, hj, hw⟩
    · simp [hb] at hi
    · obtain rfl : j = i := by simpa [hj] using hd
      exact .inr ⟨hw.usable, hw.request⟩
  | accepts w rest hb hcmds => exact ⟨⟨hd, rfl, rfl, hr, hc⟩, .inl ⟨rfl, rfl⟩⟩

/-- An illegal word in CUR has just been accepted: a waiting block has a command there. -/
theorem RunsFrom.endable_of_illegal {u : State} {why : IllegalWord} (hu : RunsFrom s u) (hs : BlockInv s = true)
    (hd : decode u.cur = .illegal why) : Endable u := by
  obtain ⟨_, hc, hplace⟩ := (blockInv_iff s).1 hs
  cases hu with
  | busy hb =>
    rcases hplace with ⟨hi, _⟩ | ⟨_, _, j, hj, _⟩
    · simp [hb] at hi
    · simp [hj] at hd
  | accepts w rest hb hcmds => exact ⟨rfl, hc⟩

theorem step_blockInv (hs : BlockInv s = true) (h : step s = .next t) : BlockInv t = true := by
  cases step_effect s t h with
  | reset _ => exact applyReset_blockInv s
  | idle _ _ _ => exact dropRspValid_blockInv hs
  | runs _ hu i hd he => exact exec_blockInv (hu.underway hs hd) he
  | illegal _ hu why hd => exact (hu.endable_of_illegal hs hd).raiseE (by decide)

/-! ## The obligations -/

/-- Settles O17: the invariant reads no input. -/
theorem theOutsideKeepsTheInvariant : Obligations.TheOutsideKeepsTheInvariant := fun _ _ => inputChange_blockInv

/-- Settles O18, by induction on how the state was reached. -/
theorem reachableStatesMeetTheInvariant : Obligations.ReachableStatesMeetTheInvariant := by
  intro s h
  induction h with
  | reset => exact reset_blockInv
  | step _ h ih => exact step_blockInv ih h
  | input _ h ih => exact inputChange_blockInv ih h

end Sys2Proof.Machine
end

section
/-! PROOFS. The registers of spec/10_state.md across one step: what reset leaves, when a response arrives and what it
carries, and who writes SESS_ERR, T0 and FR. Each fact is read off `CommandEffect`, then off `StepEffect`. -/

namespace Sys2Proof.Machine

variable {i : Instr} {s t u : State}

/-! ## The block invariant (R22, R23, R26, R28, R29, R61, R75) -/

/-- Settles O15: a step is a reset, an idle step, a command or an illegal word, and each keeps the invariant. -/
theorem everyStepKeepsTheInvariant : Obligations.EveryStepKeepsTheInvariant := fun _ _ => step_blockInv

/-- Settles O16. -/
theorem resetMeetsTheInvariant : Obligations.ResetMeetsTheInvariant := reset_blockInv

/-! ## Reset (R38, R220) -/

theorem step_of_rst (h : s.rst = true) : step s = .next (applyReset s) := if_pos h

@[simp] theorem sampleRing_zero_get (k : BitVec 2) : SampleRing.zero.get k = 0 := by
  rcases idx_cases k with rfl | rfl | rfl | rfl <;> rfl

/-- Rings that are all zero hold 0 in every entry (R38). -/
theorem ring_get_of_zero_rings (h : s.rings = Vector.replicate 8 SampleRing.zero) (r : BitVec 3) (k : BitVec 2) :
    (s.ring r).get k = 0 := by
  simp [State.ring, h]

/-- Settles O13. -/
theorem resetStateHoldsTheStatedValues : Obligations.ResetStateHoldsTheStatedValues :=
  ⟨rfl, rfl, rfl, rfl, rfl, ring_get_of_zero_rings rfl, rfl, rfl⟩

/-- Settles O14: the step is `applyReset`, field by field. -/
theorem rstWinsInEveryState : Obligations.RstWinsInEveryState := by
  intro s h
  exact ⟨applyReset s, step_of_rst h, rfl, rfl, rfl, rfl, rfl, ring_get_of_zero_rings rfl, rfl, rfl, rfl, rfl, h, rfl, rfl⟩

/-! ## Responses (R22, R23, R92) -/

/-- The response registers and `rsp_valid` are as they were: no response came between `s` and `t`. -/
structure Silent (s t : State) : Prop where
  rspValid : t.rspValid = s.rspValid
  status : t.status = s.status
  res0 : t.res0 = s.res0
  res1 : t.res1 = s.res1

/-- A response has just been delivered: its command is over, and an error carries zero results (R22, R23). -/
structure Responded (t : State) : Prop where
  rspValid : t.rspValid = true
  busy : t.busy = false
  useq : t.useq = 0
  results : t.status = 0 ∨ t.res0 = 0 ∧ t.res1 = 0

theorem EffectChain.silent (h : EffectChain i s t) : Silent s t := by
  obtain ⟨_, hv, hs, h0, h1, _⟩ := h.keeps
  exact ⟨hv, hs, h0, h1⟩

theorem Silent.trans (h : Silent s t) (h' : Silent t u) : Silent s u :=
  ⟨h'.rspValid.trans h.rspValid, h'.status.trans h.status, h'.res0.trans h.res0, h'.res1.trans h.res1⟩

/-- A command waits with no response given, or it has responded. -/
theorem CommandEffect.silent_or_responded (h : CommandEffect i s t) : Silent s t ∨ Responded t := by
  cases h with
  | waits c _ => exact .inl c.silent
  | ends code r0 r1 _ hz _ => exact .inr ⟨rfl, rfl, rfl, hz⟩

/-- A command starts to run with `rsp_valid` dropped and the last response still in its registers (R92). -/
theorem RunsFrom.silent (h : RunsFrom s u) : Silent (dropRspValid s) u := by
  cases h <;> exact ⟨rfl, rfl, rfl, rfl⟩

/-- A command runs only if one was in progress or a word was presented (R91). -/
theorem RunsFrom.cause (h : RunsFrom s u) : s.busy = true ∨ s.cmds ≠ [] := by
  cases h with
  | busy hb => exact .inl hb
  | accepts w rest _ hc => exact .inr (by simp [hc])

/-- An unreset step is silent, or it delivers the response of a command in progress or just presented. -/
theorem step_silent_or_responded (hr : s.rst = false) (h : step s = .next t) :
    Silent (dropRspValid s) t ∨ Responded t ∧ (s.busy = true ∨ s.cmds ≠ []) := by
  cases step_effect s t h with
  | reset hr' => simp [hr] at hr'
  | idle _ _ _ => exact .inl ⟨rfl, rfl, rfl, rfl⟩
  | runs _ hu i _ he =>
    rcases (exec_effect i _ t he).silent_or_responded with hs | hs
    · exact .inl (hu.silent.trans hs)
    · exact .inr ⟨hs, hu.cause⟩
  | illegal _ hu _ _ => exact .inr ⟨⟨rfl, rfl, rfl, .inr ⟨rfl, rfl⟩⟩, hu.cause⟩

/-- Settles O11: a silent step keeps the response registers, and a response ends its command. -/
theorem responseRegistersHoldUntilTheNextResponse : Obligations.ResponseRegistersHoldUntilTheNextResponse := by
  intro s t hr h
  rcases step_silent_or_responded hr h with hs | ⟨hs, hc⟩
  · exact ⟨fun _ => ⟨hs.status, hs.res0, hs.res1⟩, fun hv => absurd hv (by simp [hs.rspValid])⟩
  · exact ⟨fun hv => absurd hv (by simp [hs.rspValid]), fun _ => ⟨hs.busy, hs.useq, hc⟩⟩

/-- Settles O12: neither reset nor a silent step delivers a response, and a response with an error has zero results. -/
theorem errorResponsesCarryZeroResults : Obligations.ErrorResponsesCarryZeroResults := by
  intro s t h hv hne
  cases hr : s.rst with
  | true =>
    cases (step_of_rst hr).symm.trans h
    cases hv
  | false =>
    rcases step_silent_or_responded hr h with hs | ⟨hs, _⟩
    · exact absurd hv (by simp [hs.rspValid])
    · exact hs.results.resolve_left hne

/-! ## SESS_ERR (R28) -/

theorem mem_sessionCodes {c : Code} : c ∈ sessionCodes ↔ c = 0 ∨ c = -1 ∨ c = -2 := by simp [sessionCodes]

theorem EffectChain.sessErr (h : EffectChain i s t) :
    t.sessErr = s.sessErr ∨ i = .shtinit ∧ t.sessErr ∈ sessionCodes := by
  induction h with
  | nil => exact .inl rfl
  | cons a _ ih =>
    cases a with
    | writesSessErr c hi hc => exact .inr ⟨hi, ih.elim (fun e => e ▸ mem_sessionCodes.2 hc) And.right⟩
    | issues | takesAnswer | writesT0 | writesRing | writesFr => simpa using ih

theorem CommandEffect.sessErr (h : CommandEffect i s t) :
    t.sessErr = s.sessErr ∨ i = .shtinit ∧ t.sessErr ∈ sessionCodes := by
  cases h with
  | waits c _ => exact c.sessErr
  | ends _ _ _ c _ _ => exact c.sessErr

theorem CommandEffect.cur (h : CommandEffect i s t) : t.cur = s.cur := h.keeps.2.1

theorem RunsFrom.sessErr (h : RunsFrom s u) : u.sessErr = s.sessErr := by cases h <;> rfl

/-- A step keeps SESS_ERR, unless it is a reset or runs SHTINIT, and these write legal codes. -/
theorem step_sessErr (h : step s = .next t) :
    t.sessErr = s.sessErr ∨ (s.rst = true ∨ decode t.cur = .command .shtinit) ∧ t.sessErr ∈ sessionCodes := by
  cases step_effect s t h with
  | reset hr => exact .inr ⟨.inl hr, by simp [sessionCodes, eOpen]⟩
  | idle _ _ _ => exact .inl rfl
  | runs _ hu i hd he =>
    have heff := exec_effect i _ t he
    rcases heff.sessErr with e | ⟨rfl, hc⟩
    · exact .inl (e.trans hu.sessErr)
    · exact .inr ⟨.inr (heff.cur ▸ hd), hc⟩
  | illegal _ hu _ _ => exact .inl hu.sessErr

/-- An error raised with nothing on the port ends the command with no request (R222). -/
theorem raiseE_eq_ended (h : s.port = none) (code : Code) : raiseE code s = ended s code 0 0 s.answers s.requests := by
  simp [raiseE, deliver, ended, ← h]

/-- A measurement that starts in a session that is not usable ends with SESS_ERR as its status (R187). -/
theorem measure_starting_noSession {finish : Frame → State → State} (hs : s.Starting) (he : s.sessErr ≠ 0) :
    measure finish s = ended s s.sessErr 0 0 s.answers s.requests := by
  obtain ⟨_, hu, hp⟩ := hs
  rw [measure_noSession hu he, raiseE_eq_ended hp]

/-- Settles O26: who writes SESS_ERR and what it holds is `step_sessErr`; a measurement tests it first. -/
theorem sessionRegisterDiscipline : Obligations.SessionRegisterDiscipline := by
  refine ⟨fun s t h hne => ?_, fun s t h hs => ?_, fun s hs he => ?_⟩
  · exact ((step_sessErr h).resolve_left hne).1
  · rw [← mem_sessionCodes] at hs ⊢
    rcases step_sessErr h with e | ⟨_, hc⟩
    · exact e ▸ hs
    · exact hc
  · exact ⟨congrArg _ (measure_starting_noSession hs he), congrArg _ (measure_starting_noSession hs he)⟩

/-! ## T0 and FR (R30) -/

theorem EffectChain.t0 (h : EffectChain i s t) :
    t.t0 = s.t0 ∨ (setter i).isSome ∨ (∃ id, i = .getobj id) ∨ ∃ id r, i = .getobjtc id r := by
  induction h with
  | nil => exact .inl rfl
  | cons a _ ih =>
    cases a with
    | writesT0 v hi => exact .inr hi
    | issues | takesAnswer | writesRing | writesFr | writesSessErr => simpa using ih

theorem CommandEffect.t0 (h : CommandEffect i s t) :
    t.t0 = s.t0 ∨ (setter i).isSome ∨ (∃ id, i = .getobj id) ∨ ∃ id r, i = .getobjtc id r := by
  cases h with
  | waits c _ => exact c.t0
  | ends _ _ _ c _ _ => exact c.t0

theorem EffectChain.fr (h : EffectChain i s t) : t.fr = s.fr ∨ i = .shttemp ∨ i = .shthum := by
  induction h with
  | nil => exact .inl rfl
  | cons a _ ih =>
    cases a with
    | writesFr f hi => exact .inr hi
    | issues | takesAnswer | writesT0 | writesRing | writesSessErr => simpa using ih

theorem CommandEffect.fr (h : CommandEffect i s t) : t.fr = s.fr ∨ i = .shttemp ∨ i = .shthum := by
  cases h with
  | waits c _ => exact c.fr
  | ends _ _ _ c _ _ => exact c.fr

/-- Settles O27: the access table read off the effects of a command. -/
theorem commandsWriteOnlyTheirOwnRegisters : Obligations.CommandsWriteOnlyTheirOwnRegisters := by
  intro i s t h
  have heff := exec_effect i s t h
  obtain ⟨ht1, hcur, hrst, hcmds, hdraws⟩ := heff.keeps
  exact ⟨ht1, hcur, hrst, hcmds, hdraws, heff.answers_suffix, heff.t0.resolve_left, heff.fr.resolve_left⟩

end Sys2Proof.Machine
end

section
/-! PROOFS. Configuration fields (spec/41_config.md): what a write to a field does to the bits of the word, and the
setters' micro-sequence in closed form, for every field at once. -/

namespace Sys2Proof.Machine

/-! ## The word a setter writes (R33, R34, R130, R131) -/

theorem mergeField_getLsbD {n : Nat} (m : Reg16) (lo : Nat) (v : BitVec n) (t0 : Reg16) (k : Nat) :
    (mergeField m lo v t0).getLsbD k =
      if m.getLsbD k then !decide (k < lo) && v.getLsbD (k - lo) else t0.getLsbD k := by
  by_cases hk : k < 16
  · simp only [mergeField, BitVec.getLsbD_or, BitVec.getLsbD_and, BitVec.getLsbD_not, BitVec.getLsbD_shiftLeft,
      BitVec.getLsbD_setWidth, hk, show k - lo < 16 by omega, decide_true, Bool.true_and]
    cases m.getLsbD k <;> simp
  · simp [BitVec.getLsbD_of_ge _ k (Nat.le_of_not_lt hk)]

/-- A bit outside the field keeps the value read (R34). -/
theorem mergeField_getLsbD_outside {n : Nat} {m : Reg16} {k : Nat} (h : m.getLsbD k = false) (lo : Nat) (v : BitVec n)
    (t0 : Reg16) : (mergeField m lo v t0).getLsbD k = t0.getLsbD k := by
  simp [mergeField_getLsbD, h]

/-- A field disjoint from the one written reads as before. -/
theorem mergeField_and_disjoint {n : Nat} {m m' : Reg16} (h : m &&& m' = 0) (lo : Nat) (v : BitVec n) (t0 : Reg16) :
    mergeField m lo v t0 &&& m' = t0 &&& m' := by
  apply BitVec.eq_of_getLsbD_eq
  intro k _
  have hk : (m.getLsbD k && m'.getLsbD k) = false := by simpa using congrArg (fun x => x.getLsbD k) h
  rw [BitVec.getLsbD_and, BitVec.getLsbD_and]
  rcases Bool.and_eq_false_iff.1 hk with hm | hm'
  · rw [mergeField_getLsbD_outside hm]
  · simp [hm']

/-- `m` is the mask of the `w` bits from `lo` up (R33). -/
def IsFieldMask (m : Reg16) (lo w : Nat) : Prop := lo + w ≤ 16 ∧ ∀ k < 16, m.getLsbD k = decide (lo ≤ k ∧ k < lo + w)

/-- A field reads back the value written to it (R143). -/
theorem fieldOf_mergeField {m : Reg16} {lo w : Nat} (hm : IsFieldMask m lo w) {val : Reg16} (hv : val.toNat < 2 ^ w)
    (t0 : Reg16) : fieldOf m lo (mergeField m lo val t0) = val := by
  obtain ⟨hfit, hbits⟩ := hm
  apply BitVec.eq_of_getLsbD_eq
  intro k hk
  rw [fieldOf, BitVec.getLsbD_ushiftRight, BitVec.getLsbD_and, mergeField_getLsbD]
  by_cases hw : k < w
  · have hin : m.getLsbD (lo + k) = true := by simp [hbits (lo + k) (by omega), hw]
    simp [hin]
  · have hout : m.getLsbD (lo + k) = false := by
      by_cases h16 : lo + k < 16
      · simp [hbits _ h16, hw]
      · exact BitVec.getLsbD_of_ge _ _ (Nat.le_of_not_lt h16)
    have hval : val.toNat < 2 ^ k := hv.trans_le (Nat.pow_le_pow_right (by decide) (Nat.le_of_not_lt hw))
    rw [hout, Bool.and_false]
    exact (Nat.testBit_lt_two_pow hval).symm

theorem configFields_masks : ∀ x ∈ configFields, IsFieldMask x.1 x.2.1 x.2.2 := by
  unfold IsFieldMask
  decide

theorem configFields_disjoint : configFields.Pairwise (fun x y => x.1 &&& y.1 = 0) := by decide

/-- Settles O35: the masks are fixed words, and a field write is `mergeField`, bit by bit. -/
theorem fieldWritesRoundTrip : Obligations.FieldWritesRoundTrip := by
  refine ⟨configFields_disjoint, by decide, by decide, fun x hx val t0 hv => ⟨?_, fun y hy hne => ?_⟩⟩
  · exact fieldOf_mergeField (configFields_masks x hx) hv t0
  · have hsymm : Std.Symm fun x y : Reg16 × Nat × Nat => x.1 &&& y.1 = 0 := ⟨fun a b h => by rwa [BitVec.and_comm]⟩
    exact mergeField_and_disjoint (configFields_disjoint.forall hx hy hne.symm) _ _ _

/-! ## The setters' micro-sequence (R130) -/

theorem issue_of_port_ne (r : Request) {s : State} (h : s.port ≠ none) : issue r s = s := if_neg h

theorem requestsWith_of_port_ne (r : Request) {s : State} (h : s.port ≠ none) : s.requestsWith r = s.requests := if_neg h

section
variable {n : Nat} {id : BitVec 6} {m : Reg16} {lo : Nat} {v : BitVec n} {s : State} {a b : Answer} {rest : List Answer}

/-- With both answers there, the word read goes to T0 and the merged word is written. -/
theorem setField_answered (hu : s.useq = 0) (h : s.answers = a :: b :: rest) :
    setField id m lo v s = { ended s 0 0 0 rest (s.requestsWith (tmpRead id 0x02) ++
      [tmpWrite id 0x02 (mergeField m lo v a.word)]) with t0 := a.word } := by
  rw [setField, twoRequests_goOn hu h rfl, transact_cons rfl]
  rfl

/-- With one answer there, the setter waits with the merged word on the port. -/
theorem setField_waits (hu : s.useq = 0) (h : s.answers = [a]) :
    setField id m lo v s = { waitingOn s 1 (tmpWrite id 0x02 (mergeField m lo v a.word))
      (s.requestsWith (tmpRead id 0x02) ++ [tmpWrite id 0x02 (mergeField m lo v a.word)]) with t0 := a.word } := by
  rw [setField, twoRequests_goOn hu h rfl, transact_nil rfl, issue_eq]
  simp only [afterAnswer, hu]
  rfl

theorem setField_resumed_unanswered (hu : s.useq ≠ 0) (h : s.answers = []) :
    setField id m lo v s = issue (tmpWrite id 0x02 (mergeField m lo v s.t0)) s := by
  rw [setField, twoRequests_resumed hu, transact_nil h]
  rfl

theorem setField_resumed_answered (hu : s.useq ≠ 0) (h : s.answers = b :: rest) :
    setField id m lo v s = ended s 0 0 0 rest (s.requestsWith (tmpWrite id 0x02 (mergeField m lo v s.t0))) := by
  rw [setField, twoRequests_resumed hu, transact_cons h]
  rfl

end

/-- Each setter is `setField` on the field of its mask, with the two requests of R130. -/
theorem exec_setter {i : Instr} {id : BitVec 6} {m : Reg16} {f : Reg16 → Reg16} (h : setter i = some (id, m, f)) :
    ∃ (n lo : Nat) (v : BitVec n), (∀ s, exec i s = .next (setField id m lo v s)) ∧
      ∀ t0, scheduled t0 i = setterRequests id m lo v t0 := by
  cases i with
  | swrst => cases h; exact ⟨_, _, _, fun _ => rfl, fun _ => rfl⟩
  | setmode => cases h; exact ⟨_, _, _, fun _ => rfl, fun _ => rfl⟩
  | setrate => cases h; exact ⟨_, _, _, fun _ => rfl, fun _ => rfl⟩
  | setdrdyen => cases h; exact ⟨_, _, _, fun _ => rfl, fun _ => rfl⟩
  | clrdrdy => cases h; exact ⟨_, _, _, fun _ => rfl, fun _ => rfl⟩
  | _ => cases h

/-- Under the invariant, a command past the first of its two requests has the second on the port, the last one made. -/
theorem second_request_stands {i : Instr} {s : State} {r q : Request} (hs : BlockInv s = true) (hb : s.busy = true)
    (hd : decode s.cur = .command i) (hu : s.useq ≠ 0) (hsch : scheduled s.t0 i = [r, q]) :
    s.port = some q ∧ s.requests.getLast? = some q := by
  have hway : Underway i (dropRspValid s) := (RunsFrom.busy hb).underway hs hd
  rcases hway.place with ⟨h0, _⟩ | ⟨_, p, hp, _⟩
  · exact absurd h0 hu
  · have hport : s.port ≠ none := by simpa using Option.ne_none_iff_exists'.2 ⟨p, hp⟩
    exact (hway.ready_second hu hsch).port.resolve_left hport

/-- Settles O34: the word is `mergeField` of the word read, which keeps the bits outside the mask; a resumed setter
stands at its second request, so that going on issues none. -/
theorem settersPreserveBitsOutsideTheField : Obligations.SettersPreserveBitsOutsideTheField := by
  intro i id m f s hset
  obtain ⟨n, lo, v, hexec, hsch⟩ := exec_setter hset
  have bits : ∀ t0 : Reg16, ∀ k, m.getLsbD k = false → (mergeField m lo v t0).getLsbD k = t0.getLsbD k :=
    fun t0 k hk => mergeField_getLsbD_outside hk lo v t0
  simp only [hexec]
  refine ⟨fun a b rest hu ha => ?_, fun a hu ha => ?_, fun b rest hu hp ha => ?_, fun hs hb hd hu => ?_⟩
  · rw [setField_answered hu ha]
    exact ⟨_, _, rfl, rfl, bits a.word⟩
  · rw [setField_waits hu ha]
    exact ⟨_, _, rfl, rfl, rfl, rfl, rfl, bits a.word⟩
  · rw [setField_resumed_answered hu ha]
    exact ⟨_, _, rfl, if_pos hp, bits s.t0⟩
  · obtain ⟨hp, hl⟩ := second_request_stands hs hb hd hu (hsch s.t0)
    have hport : s.port ≠ none := by simp [hp]
    refine ⟨_, _, hp, bits s.t0, rfl, ?_⟩
    rcases ha : s.answers with _ | ⟨b, rest⟩
    · rw [setField_resumed_unanswered hu ha, issue_of_port_ne _ hport]
      exact ⟨rfl, hl, fun _ => rfl, fun hne => absurd rfl hne⟩
    · rw [setField_resumed_answered hu ha, requestsWith_of_port_ne _ hport]
      exact ⟨rfl, hl, fun hnil => by simp at hnil, fun _ => ⟨rfl, rfl⟩⟩

end Sys2Proof.Machine
end

section
/-! PROOFS. What a command reads (spec/10_state.md R25, R27 to R30): two blocks that differ only in what it does not read
run it in lockstep. `Lockstep R` says that every shared operation keeps the relation `R`; from it one lemma per
micro-sequence shape and one per command, and the statements by their choice of `R`. -/

namespace Sys2Proof.Machine

/-! ## Lockstep relations -/

/-- Blocks related by `R` stand at the same place of the command and have the same answers before them, and no shared
operation parts them. -/
structure Lockstep (R : State → State → Prop) : Prop where
  useq {s s' : State} : R s s' → s.useq = s'.useq
  answers {s s' : State} : R s s' → s.answers = s'.answers
  issue {s s' : State} (r : Request) : R s s' → R (issue r s) (issue r s')
  takeAnswer {s s' : State} (rest : List Answer) : R s s' → R (takeAnswer rest s) (takeAnswer rest s')
  deliver {s s' : State} (code : Code) (r0 r1 : BitVec 32) : R s s' → R (deliver code r0 r1 s) (deliver code r0 r1 s')
  withT0 {s s' : State} (v : Reg16) : R s s' → R { s with t0 := v } { s' with t0 := v }
  withFr {s s' : State} (f : Frame) : R s s' → R { s with fr := f } { s' with fr := f }

/-- Blocks related by `R` have the same rings, and the same write to a ring does not part them. -/
structure RingLockstep (R : State → State → Prop) : Prop where
  rings {s s' : State} : R s s' → s.rings = s'.rings
  setRing {s s' : State} (r : BitVec 3) (v : SampleRing) : R s s' → R (State.setRing r v s) (State.setRing r v s')

/-- Blocks related by `R` have the same SESS_ERR, and the same write to it does not part them. -/
structure SessionLockstep (R : State → State → Prop) : Prop where
  sessErr {s s' : State} : R s s' → s.sessErr = s'.sessErr
  withSessErr {s s' : State} (c : Code) : R s s' → R { s with sessErr := c } { s' with sessErr := c }

/-- `R` between blocks that also agree on T0, the one temporary a command reads (R29). -/
def AgreeT0 (R : State → State → Prop) (s s' : State) : Prop := R s s' ∧ s.t0 = s'.t0

theorem RingLockstep.ring {R : State → State → Prop} (hR : RingLockstep R) {s s' : State} (h : R s s') (r : BitVec 3) :
    s.ring r = s'.ring r := ring_congr (hR.rings h) r

variable {R M : State → State → Prop} {i : Instr} {s s' : State}

theorem Lockstep.agreeT0 (L : Lockstep R) : Lockstep (AgreeT0 R) where
  useq h := L.useq h.1
  answers h := L.answers h.1
  issue r h := ⟨L.issue r h.1, by simpa using h.2⟩
  takeAnswer rest h := ⟨L.takeAnswer rest h.1, h.2⟩
  deliver code r0 r1 h := ⟨L.deliver code r0 r1 h.1, h.2⟩
  withT0 v h := ⟨L.withT0 v h.1, rfl⟩
  withFr f h := ⟨L.withFr f h.1, h.2⟩

/-! ## The micro-sequences in lockstep -/

section
variable (L : Lockstep R)
include L

theorem Lockstep.respond {r0 r0' r1 r1' : BitVec 32} (h : R s s') (h0 : r0 = r0') (h1 : r1 = r1') :
    R (respond r0 r1 s) (respond r0' r1' s') := by
  subst h0 h1
  exact L.deliver _ _ _ h

theorem Lockstep.raiseE (code : Code) (h : R s s') : R (raiseE code s) (raiseE code s') := L.deliver _ _ _ h

/-- One request, from blocks that the stronger relation `M` relates. -/
theorem Lockstep.transact {r : Request} {next : Answer → State → State} (LM : Lockstep M)
    (hMR : ∀ {u u'}, M u u' → R u u') (h : M s s') (hn : ∀ a u u', M u u' → R (next a u) (next a u')) :
    R (transact r next s) (transact r next s') := by
  unfold Machine.transact
  rw [← LM.answers h]
  split
  · exact L.issue r (hMR h)
  · exact hn _ _ _ (LM.takeAnswer _ (LM.issue r h))

theorem Lockstep.readAndRespond {id : BitVec 6} {ptr : Byte} {f : Reg16 → BitVec 32} (h : R s s') :
    R (readAndRespond id ptr f s) (readAndRespond id ptr f s') :=
  L.transact L (fun h => h) h fun _ _ _ hu => L.respond hu rfl rfl

/-- Two requests: what follows the first answer must end both commands or bring them into the relation `M`, in which
the second request and its answer are dealt with. -/
theorem Lockstep.twoRequests {first : Request} {mid : Answer → State → AfterFirst} {second : State → Request}
    {finish : Answer → State → State} (LM : Lockstep M) (hMR : ∀ {u u'}, M u u' → R u u') (h : R s s')
    (hres : s.useq ≠ 0 → M s s')
    (hmid : ∀ a u u', R u u' → (∃ v v', mid a u = .stop v ∧ mid a u' = .stop v' ∧ R v v') ∨
      ∃ v v', mid a u = .goOn v ∧ mid a u' = .goOn v' ∧ M v v')
    (hsecond : ∀ u u', M u u' → second u = second u') (hfinish : ∀ a u u', M u u' → R (finish a u) (finish a u')) :
    R (twoRequests first mid second finish s) (twoRequests first mid second finish s') := by
  have finishes : ∀ {u u'}, M u u' → R (Machine.transact (second u) finish u) (Machine.transact (second u') finish u') :=
    fun {u u'} hu => by
      rw [← hsecond u u' hu]
      exact L.transact LM hMR hu hfinish
  unfold Machine.twoRequests
  rw [← L.useq h]
  split
  · refine L.transact L (fun h => h) h fun a u u' hu => ?_
    rcases hmid a u u' hu with ⟨v, v', e, e', hv⟩ | ⟨v, v', e, e', hv⟩
    · simpa only [e, e'] using hv
    · simpa only [e, e'] using finishes hv
  · rename_i hu
    exact finishes (hres hu)

theorem Lockstep.setField {n : Nat} {id : BitVec 6} {m : Reg16} {lo : Nat} {v : BitVec n} (h : R s s')
    (ht0 : s.useq ≠ 0 → s.t0 = s'.t0) : R (setField id m lo v s) (setField id m lo v s') :=
  L.twoRequests L.agreeT0 And.left h (fun hu => ⟨h, ht0 hu⟩)
    (fun a _ _ hu => .inr ⟨_, _, rfl, rfl, L.withT0 a.reg hu, rfl⟩)
    (fun _ _ hu => congrArg (fun t0 => wrReg _ _ (mergeField m lo v t0)) hu.2) (fun _ _ _ hu => L.respond hu.1 rfl rfl)

theorem Lockstep.getobj {id : BitVec 6} (h : R s s') (ht0 : s.useq ≠ 0 → s.t0 = s'.t0) :
    ∃ t t', execGetobj id s = .next t ∧ execGetobj id s' = .next t' ∧ R t t' :=
  ⟨_, _, rfl, rfl, L.twoRequests L.agreeT0 And.left h (fun hu => ⟨h, ht0 hu⟩)
    (fun a _ _ hu => .inr ⟨_, _, rfl, rfl, L.withT0 a.reg hu, rfl⟩) (fun _ _ _ => rfl)
    (fun _ _ _ hu => L.respond hu.1 (by rw [hu.2]) rfl)⟩

theorem Lockstep.getobjtc (hR : RingLockstep R) {id : BitVec 6} {ring : BitVec 3} (h : R s s') :
    ∃ t t', execGetobjtc id ring s = .next t ∧ execGetobjtc id ring s' = .next t' ∧ R t t' := by
  refine ⟨_, _, rfl, rfl, L.twoRequests L (fun h => h) h (fun _ => h) (fun a u u' hu => .inr ⟨_, _, rfl, rfl, ?_⟩)
    (fun _ _ _ => rfl) (fun a u u' hu => ?_)⟩
  · rw [← hR.ring hu ring]
    exact hR.setRing _ _ (L.withT0 _ hu)
  · exact L.respond hu (by rw [hR.ring hu ring]) (by rw [hR.ring hu ring])

theorem Lockstep.shtinit (hS : SessionLockstep R) (h : R s s') :
    ∃ t t', execShtinit s = .next t ∧ execShtinit s' = .next t' ∧ R t t' := by
  refine ⟨_, _, rfl, rfl, L.twoRequests L (fun h => h) h (fun _ => h) (fun a u u' hu => ?_) (fun _ _ _ => rfl)
    (fun b u u' hu => ?_)⟩
  · cases a.ok with
    | true => exact .inr ⟨u, u', rfl, rfl, hu⟩
    | false => exact .inl ⟨_, _, rfl, rfl, L.raiseE _ (hS.withSessErr _ hu)⟩
  · cases b.ok with
    | true => exact L.respond (hS.withSessErr _ hu) rfl rfl
    | false => exact L.raiseE _ (hS.withSessErr _ hu)

theorem Lockstep.frameRead {finish : Frame → State → State} (hf : ∀ f u u', R u u' → R (finish f u) (finish f u'))
    (a : Answer) (h : R s s') : R (frameRead finish a s) (frameRead finish a s') := by
  unfold Machine.frameRead
  split
  · exact L.raiseE _ (L.withFr _ h)
  · exact hf _ _ _ (L.withFr _ h)

theorem Lockstep.measure {finish : Frame → State → State} (hS : SessionLockstep R)
    (hf : ∀ f u u', R u u' → R (finish f u) (finish f u')) (h : R s s') : R (measure finish s) (measure finish s') := by
  unfold Machine.measure
  rw [← L.useq h, ← hS.sessErr h]
  split
  · exact L.raiseE _ h
  · refine L.twoRequests L (fun h => h) h (fun _ => h) (fun a u u' hu => ?_) (fun _ _ _ => rfl)
      (fun a _ _ hu => L.frameRead hf a hu)
    by_cases hcnt : a.cnt ≠ 2
    · exact .inl ⟨_, _, if_pos hcnt, if_pos hcnt, L.raiseE _ hu⟩
    · exact .inr ⟨u, u', if_neg hcnt, if_neg hcnt, hu⟩

theorem Lockstep.decodeTemp (f : Frame) (h : R s s') : R (decodeTemp f s) (decodeTemp f s') := by
  unfold Machine.decodeTemp
  split
  · exact L.raiseE _ h
  · exact L.respond h rfl rfl

theorem Lockstep.decodeHum (f : Frame) (h : R s s') : R (decodeHum f s) (decodeHum f s') := by
  unfold Machine.decodeHum
  split
  · exact L.raiseE _ h
  · exact L.respond h rfl rfl

end

/-! ## Every command in lockstep -/

/-- The four commands of the ring family (R25). -/
def UsesRings (i : Instr) : Prop :=
  (∃ id r, i = .getobjtc id r) ∨ (∃ r x, i = .ringrd r x) ∨ (∃ r x v, i = .ringwr r x v) ∨ ∃ r, i = .ringclr r

/-- The three commands of the SHT31 (R28). -/
def UsesSession (i : Instr) : Prop := i = .shtinit ∨ i = .shttemp ∨ i = .shthum

/-- Related blocks run a command in lockstep: the rings matter to the ring family alone, SESS_ERR to the SHT31 commands
alone, and T0 only to a command resumed after it was written. -/
theorem exec_lockstep (L : Lockstep R) (hR : UsesRings i → RingLockstep R) (hS : UsesSession i → SessionLockstep R)
    (h : R s s') (ht0 : s.useq ≠ 0 → s.t0 = s'.t0) : ∃ t t', exec i s = .next t ∧ exec i s' = .next t' ∧ R t t' := by
  cases i with
  | wrreg => exact ⟨_, _, rfl, rfl, L.transact L (fun h => h) h fun _ _ _ hu => L.respond hu rfl rfl⟩
  | rdreg => exact ⟨_, _, rfl, rfl, L.readAndRespond h⟩
  | swrst => exact ⟨_, _, rfl, rfl, L.setField h ht0⟩
  | getmode => exact ⟨_, _, rfl, rfl, L.readAndRespond h⟩
  | setmode => exact ⟨_, _, rfl, rfl, L.setField h ht0⟩
  | getrate => exact ⟨_, _, rfl, rfl, L.readAndRespond h⟩
  | setrate => exact ⟨_, _, rfl, rfl, L.setField h ht0⟩
  | getdrdyen => exact ⟨_, _, rfl, rfl, L.readAndRespond h⟩
  | setdrdyen => exact ⟨_, _, rfl, rfl, L.setField h ht0⟩
  | getdrdy => exact ⟨_, _, rfl, rfl, L.readAndRespond h⟩
  | clrdrdy => exact ⟨_, _, rfl, rfl, L.setField h ht0⟩
  | getmfgid => exact ⟨_, _, rfl, rfl, L.readAndRespond h⟩
  | getdevid => exact ⟨_, _, rfl, rfl, L.readAndRespond h⟩
  | getamb => exact ⟨_, _, rfl, rfl, L.readAndRespond h⟩
  | getobj => exact L.getobj h ht0
  | getobjtc id r => exact L.getobjtc (hR (.inl ⟨id, r, rfl⟩)) h
  | ringrd r x =>
    exact ⟨_, _, rfl, rfl, L.respond h (by rw [(hR (.inr (.inl ⟨r, x, rfl⟩))).ring h r]) rfl⟩
  | ringwr r x v =>
    have hr := hR (.inr (.inr (.inl ⟨r, x, v, rfl⟩)))
    exact ⟨_, _, rfl, rfl, L.respond (by rw [← hr.ring h r]; exact hr.setRing _ _ h) rfl rfl⟩
  | ringclr r =>
    exact ⟨_, _, rfl, rfl, L.respond ((hR (.inr (.inr (.inr ⟨r, rfl⟩)))).setRing _ _ h) rfl rfl⟩
  | crc8 => exact ⟨_, _, rfl, rfl, L.respond h rfl rfl⟩
  | crcchk b0 b1 sent =>
    refine ⟨_, _, rfl, rfl, ?_⟩
    split
    · exact L.raiseE _ h
    · exact L.respond h rfl rfl
  | shtinit => exact L.shtinit (hS (.inl rfl)) h
  | shttemp => exact ⟨_, _, rfl, rfl, L.measure (hS (.inr (.inl rfl))) (fun f _ _ => L.decodeTemp f) h⟩
  | shthum => exact ⟨_, _, rfl, rfl, L.measure (hS (.inr (.inr rfl))) (fun f _ _ => L.decodeHum f) h⟩

/-! ## Other contents in the rings or in SESS_ERR (R30, R255) -/

/-- `s'` is `s` with other rings. -/
def RingsReplaced (rings : Vector SampleRing 8) (s s' : State) : Prop := s' = { s with rings := rings }

/-- `s'` is `s` with another SESS_ERR. -/
def SessErrReplaced (e : Code) (s s' : State) : Prop := s' = { s with sessErr := e }

theorem ringsReplaced_lockstep (rings : Vector SampleRing 8) : Lockstep (RingsReplaced rings) where
  useq h := by rw [h]
  answers h := by rw [h]
  issue r h := by rw [h, RingsReplaced, issue_eq, issue_eq]; rfl
  takeAnswer _ h := by rw [h]; rfl
  deliver _ _ _ h := by rw [h]; rfl
  withT0 _ h := by rw [h]; rfl
  withFr _ h := by rw [h]; rfl

theorem sessErrReplaced_lockstep (e : Code) : Lockstep (SessErrReplaced e) where
  useq h := by rw [h]
  answers h := by rw [h]
  issue r h := by rw [h, SessErrReplaced, issue_eq, issue_eq]; rfl
  takeAnswer _ h := by rw [h]; rfl
  deliver _ _ _ h := by rw [h]; rfl
  withT0 _ h := by rw [h]; rfl
  withFr _ h := by rw [h]; rfl

theorem sessErrReplaced_ringLockstep (e : Code) : RingLockstep (SessErrReplaced e) where
  rings h := by rw [h]
  setRing _ _ h := by rw [h]; rfl

theorem ringsReplaced_sessionLockstep (rings : Vector SampleRing 8) : SessionLockstep (RingsReplaced rings) where
  sessErr h := by rw [h]
  withSessErr _ h := by rw [h]; rfl

/-- Settles O29: blocks that differ in the rings alone, or in SESS_ERR alone, run the other families in lockstep. -/
theorem familiesShareNoState : Obligations.FamiliesShareNoState := by
  refine ⟨fun i s rings htc hrd hwr hclr => ?_, fun i s e hinit htemp hhum => ?_⟩
  · have hno : ¬ UsesRings i := by
      rintro (⟨id, r, hi⟩ | ⟨r, x, hi⟩ | ⟨r, x, v, hi⟩ | ⟨r, hi⟩)
      exacts [htc id r hi, hrd r x hi, hwr r x v hi, hclr r hi]
    obtain ⟨t, _, he, he', rfl⟩ := exec_lockstep (ringsReplaced_lockstep rings) (fun h => absurd h hno)
      (fun _ => ringsReplaced_sessionLockstep rings) (s := s) rfl fun _ => rfl
    exact ⟨t, he, he'⟩
  · have hno : ¬ UsesSession i := by
      rintro (hi | hi | hi)
      exacts [hinit hi, htemp hi, hhum hi]
    obtain ⟨t, _, he, he', rfl⟩ := exec_lockstep (sessErrReplaced_lockstep e)
      (fun _ => sessErrReplaced_ringLockstep e) (fun h => absurd h hno) (s := s) rfl fun _ => rfl
    exact ⟨t, he, he'⟩

/-! ## Earlier commands (R27, R29, R223) -/

/-- Two blocks with different histories that have done the same since their request records were `before` and
`before'`: they agree on everything but CUR, the temporaries, the inputs `rst` and `cmds`, and, until they respond, the
response registers. -/
structure SameSince (before before' : List Request) (s s' : State) : Prop where
  busy : s.busy = s'.busy
  useq : s.useq = s'.useq
  port : s.port = s'.port
  sessErr : s.sessErr = s'.sessErr
  rings : s.rings = s'.rings
  answers : s.answers = s'.answers
  requests : ∃ new, s.requests = before ++ new ∧ s'.requests = before' ++ new
  response : s.busy = false → s.status = s'.status ∧ s.res0 = s'.res0 ∧ s.res1 = s'.res1

variable {before before' : List Request}

theorem SameSince.issue (h : SameSince before before' s s') (r : Request) :
    SameSince before before' (issue r s) (issue r s') := by
  obtain ⟨new, hq, hq'⟩ := h.requests
  have hnew : ∃ new, s.requestsWith r = before ++ new ∧ s'.requestsWith r = before' ++ new := by
    unfold State.requestsWith
    rw [← h.port]
    split
    · exact ⟨new ++ [r], by simp [hq], by simp [hq']⟩
    · exact ⟨new, hq, hq'⟩
  rw [issue_eq, issue_eq]
  exact { h with port := by rw [h.port], requests := hnew }

theorem sameSince_lockstep (before before' : List Request) : Lockstep (SameSince before before') where
  useq h := h.useq
  answers h := h.answers
  issue r h := h.issue r
  takeAnswer _ h := { h with port := rfl, useq := congrArg (· + 1) h.useq, answers := rfl }
  deliver _ _ _ h := { h with busy := rfl, useq := rfl, response := fun _ => ⟨rfl, rfl, rfl⟩ }
  withT0 _ h := { h with }
  withFr _ h := { h with }

theorem sameSince_ringLockstep (before before' : List Request) : RingLockstep (SameSince before before') where
  rings h := h.rings
  setRing r v h := { h with rings := congrArg (fun rings => rings.set r.toNat v) h.rings }

theorem sameSince_sessionLockstep (before before' : List Request) : SessionLockstep (SameSince before before') where
  sessErr h := h.sessErr
  withSessErr _ h := { h with sessErr := rfl }

/-- Settles O28: starting blocks that agree on SESS_ERR, the rings and the answers run in lockstep. -/
theorem historyReachesCommandsOnlyThroughSessionAndRings :
    Obligations.HistoryReachesCommandsOnlyThroughSessionAndRings := by
  intro i s s' ⟨hb, hu, hp⟩ ⟨hb', hu', hp'⟩ hses hrings hans
  have hsame : SameSince s.requests s'.requests s s' :=
    { busy := hb.trans hb'.symm, useq := hu.trans hu'.symm, port := hp.trans hp'.symm, sessErr := hses, rings := hrings
      answers := hans, requests := ⟨[], by simp, by simp⟩, response := fun h => absurd h (by simp [hb]) }
  obtain ⟨t, t', he, he', ht⟩ := exec_lockstep (i := i) (sameSince_lockstep _ _) (fun _ => sameSince_ringLockstep _ _)
    (fun _ => sameSince_sessionLockstep _ _) hsame fun hne => absurd hu hne
  obtain ⟨new, hq, hq'⟩ := ht.requests
  exact ⟨t, t', new, he, he', ht.busy, ht.useq, ht.port, ht.sessErr, ht.rings, ht.answers, hq, hq', ht.response⟩

end Sys2Proof.Machine
end

section
/-! PROOFS. Register access and the frames on the wire (spec/20_memory.md rules R50 to R70): slave addresses, the forms
of request, byte order, and what one answered request leaves behind. -/

namespace Sys2Proof.Machine

/-! ## Slave addresses and request forms (R50, R70) -/

theorem slaveOf_toNat (id : BitVec 6) : (slaveOf id).toNat = 0x40 + id.toNat := by
  have hid : id.toNat < 64 := id.isLt
  have hbase : tmpBase.toNat = 0x40 := rfl
  rw [slaveOf, BitVec.toNat_add, BitVec.toNat_setWidth, hbase]
  omega

/-- Settles O21: as numbers the sum stays below 0x80, so it is `slaveOf_toNat`. -/
theorem slaveAddressNeverWraps : Obligations.SlaveAddressNeverWraps := by
  intro id
  have hid : id.toNat < 64 := id.isLt
  have hsum := slaveOf_toNat id
  refine ⟨hsum, by omega, by omega, fun id' h => BitVec.eq_of_toNat_eq ?_⟩
  have hsum' := slaveOf_toNat id'
  rw [h] at hsum'
  omega

variable {i : Instr} {s t u : State}

/-- The request record only grows, by requests of R70's forms. -/
theorem EffectChain.requests_issuable (h : EffectChain i s t) :
    ∃ new, t.requests = s.requests ++ new ∧ ∀ r ∈ new, r.Issuable := by
  induction h with
  | nil s => exact ⟨[], by simp, by simp⟩
  | cons a _ ih =>
    obtain ⟨new, e, hnew⟩ := ih
    cases a with
    | issues r hr =>
      rw [issue_requests, State.requestsWith] at e
      split at e
      · exact ⟨r :: new, by simp [e], by simpa using ⟨hr, hnew⟩⟩
      · exact ⟨new, e, hnew⟩
    | takesAnswer | writesT0 | writesRing | writesFr | writesSessErr => exact ⟨new, e, hnew⟩

/-- Settles O20: the effects of a command issue no other form of request. -/
theorem onlyTheSixRequestFormsAreIssued : Obligations.OnlyTheSixRequestFormsAreIssued := by
  intro i s t h
  cases exec_effect i s t h with
  | waits c _ => exact c.requests_issuable
  | ends _ _ _ c _ _ => exact c.requests_issuable

/-! ## Byte order and fields (R64, R66, R131, R150) -/

/-- The two bytes of a register value, reassembled in wire order, are the value. -/
theorem be16_hiByte_loByte (v : Reg16) : be16 (hiByte v) (loByte v) = v :=
  BitVec.extractLsb'_append_extractLsb'

/-- A getter's field is a slice of the word (R131). -/
theorem fieldOf_eq_extract {m : Reg16} {lo w : Nat} (hm : IsFieldMask m lo w) (v : Reg16) :
    fieldOf m lo v = (v.extractLsb' lo w).setWidth 16 := by
  obtain ⟨hfit, hbits⟩ := hm
  apply BitVec.eq_of_getLsbD_eq
  intro k hk
  rw [fieldOf, BitVec.getLsbD_ushiftRight, BitVec.getLsbD_and, BitVec.getLsbD_setWidth, BitVec.getLsbD_extractLsb']
  by_cases h16 : lo + k < 16
  · simp [hbits _ h16, hk, Bool.and_comm]
  · simp [BitVec.getLsbD_of_ge v _ (Nat.le_of_not_lt h16)]

/-- A slice of the word as a getter's result. -/
theorem fieldOf_setWidth {m : Reg16} {lo w : Nat} (hm : IsFieldMask m lo w) (v : Reg16) :
    (fieldOf m lo v).setWidth 32 = (v.extractLsb' lo w).setWidth 32 := by
  have hfit := hm.1
  rw [fieldOf_eq_extract hm, BitVec.setWidth_setWidth (by omega)]

/-! ## Commands of one request (R120, R121, R131, R141, R142, R155) -/

/-- Settles O31: WRREG is one request, and its answer ends it. -/
theorem wrregWritesOneFrame : Obligations.WrregWritesOneFrame := by
  intro id addr data s a rest h
  exact congrArg _ (transact_cons h)

/-- Each command of `singleRead` is `readAndRespond` with its own pointer and function of the value. -/
theorem exec_singleRead {id : BitVec 6} {ptr : Byte} {f : Reg16 → BitVec 32} (h : singleRead i = some (id, ptr, f)) :
    exec i s = .next (readAndRespond id ptr f s) := by
  have getter : ∀ {m lo w}, IsFieldMask m lo w →
      getField id m lo s = readAndRespond id 0x02 (fun v => (v.extractLsb' lo w).setWidth 32) s := fun hm => by
    unfold getField
    simp only [fieldOf_setWidth hm]
    rfl
  cases i with
  | rdreg => cases h; rfl
  | getmode => cases h; exact congrArg _ (getter (configFields_masks (0x7000, 12, 3) (by decide)))
  | getrate => cases h; exact congrArg _ (getter (configFields_masks (0x0E00, 9, 3) (by decide)))
  | getdrdyen => cases h; exact congrArg _ (getter (configFields_masks (0x0100, 8, 1) (by decide)))
  | getdrdy => cases h; exact congrArg _ (getter (configFields_masks (0x0080, 7, 1) (by decide)))
  | getmfgid => cases h; rfl
  | getdevid => cases h; rfl
  | getamb =>
    cases h
    have htop : t32 = fun v : Reg16 => (v.extractLsb' 2 14).signExtend 32 := funext fun v => by
      rw [t32, dieCode_extract]
    rw [← htop]
    rfl
  | _ => cases h

/-- Settles O32: one answered read ends the command with the function of the value. -/
theorem singleReadCommandsAnswerTheirField : Obligations.SingleReadCommandsAnswerTheirField := by
  intro i id ptr f s a rest hi h
  rw [exec_singleRead hi, readAndRespond_cons h]
  rfl

/-- Settles O36: the frame of WRREG carries the two bytes of the value, and RDREG reassembles them. -/
theorem writtenBytesReadBackAsTheValue : Obligations.WrittenBytesReadBackAsTheValue := by
  intro id addr data s u a b rest more hp hs hu
  refine ⟨_, _, hiByte data, loByte data, wrregWritesOneFrame id addr data s a rest hs,
    singleReadCommandsAnswerTheirField _ id addr _ u b more rfl hu, ?_, fun h0 h1 => ?_⟩
  · rw [ended_requests, State.requestsWith, if_pos hp]
    rfl
  · have hword : b.word = data := by rw [Answer.word, h0, h1]; exact be16_hiByte_loByte data
    rw [ended_res0, hword]

/-! ## The pairs of a frame (R73, R188, R189) -/

section
variable {f f' : Frame}

/-- Frames with the same temperature pair leave SHTTEMP in states that differ in FR alone (R188). -/
theorem decodeTemp_samePair (h0 : f'.b0 = f.b0) (h1 : f'.b1 = f.b1) (h2 : f'.b2 = f.b2) (s : State) :
    decodeTemp f' { s with fr := f' } = { decodeTemp f { s with fr := f } with fr := f' } := by
  unfold decodeTemp
  rw [h0, h1, h2]
  split <;> rfl

/-- Frames with the same humidity pair leave SHTHUM in states that differ in FR alone (R189). -/
theorem decodeHum_samePair (h3 : f'.b3 = f.b3) (h4 : f'.b4 = f.b4) (h5 : f'.b5 = f.b5) (s : State) :
    decodeHum f' { s with fr := f' } = { decodeHum f { s with fr := f } with fr := f' } := by
  unfold decodeHum
  rw [h3, h4, h5]
  split <;> rfl

end

section
variable {finish : Frame → State → State} {a b b' : Answer} {rest : List Answer}

/-- A measurement whose command was written goes on to the answer of its read. -/
theorem measure_answered (hu : s.useq = 0) (he : s.sessErr = 0) (h : s.answers = a :: b :: rest) (hc : a.cnt = 2) :
    measure finish s = frameRead finish b
      (afterAnswer (afterAnswer s (b :: rest) (.devWrite shtCmd 2)) rest (.devRead shtFrameLen)) := by
  rw [measure_twoRequests (.inr he), twoRequests_goOn hu h (if_neg (not_not.2 hc)), transact_cons rfl]
  rfl

/-- What `finish` does not tell apart, the whole measurement does not. -/
theorem measure_otherFrame (hu : s.useq = 0) (he : s.sessErr = 0) (h : s.answers = a :: b :: rest) (ha : a.cnt = 2)
    (hc : b'.cnt = b.cnt) (hf : ∀ u : State, finish b'.bytes { u with fr := b'.bytes } =
      { finish b.bytes { u with fr := b.bytes } with fr := b'.bytes }) :
    measure finish { s with answers := a :: b' :: rest } = { measure finish s with fr := b'.bytes } := by
  rw [measure_answered hu he h ha, measure_answered (s := { s with answers := a :: b' :: rest }) hu he rfl ha]
  unfold frameRead
  rw [hc]
  split
  · rfl
  · exact hf _

end

/-- Settles O58: each measurement ends with its own pair of the frame. -/
theorem eachMeasurementReadsOnlyItsOwnPair : Obligations.EachMeasurementReadsOnlyItsOwnPair := by
  intro s a b b' rest hu he h ha hc
  refine ⟨fun h0 h1 h2 => ⟨_, b'.bytes, rfl, ?_⟩, fun h3 h4 h5 => ⟨_, b'.bytes, rfl, ?_⟩⟩
  · exact congrArg Host.Outcome.next (measure_otherFrame hu he h ha hc (decodeTemp_samePair h0 h1 h2))
  · exact congrArg Host.Outcome.next (measure_otherFrame hu he h ha hc (decodeHum_samePair h3 h4 h5))

end Sys2Proof.Machine
end

section
/-! PROOFS. The order of transport requests (spec/20_memory.md rules R61, R63, R75). Every command is one of four
micro-sequences of its rule; from that, once per micro-sequence, the requests a command has issued when it ends or
waits. -/

namespace Sys2Proof.Machine

/-! ## The four micro-sequences -/

/-- The command ends from `s` in `t`: nothing is issued, no answer is taken, and T0 stays. -/
structure Ends (s t : State) : Prop where
  busy : t.busy = false
  port : t.port = s.port
  answers : t.answers = s.answers
  requests : t.requests = s.requests
  t0 : t.t0 = s.t0

/-- `g` touches neither the sequencer nor the transport port, and does not read the answers. -/
structure Internal (g : State → State) : Prop where
  busy (s : State) : (g s).busy = s.busy
  useq (s : State) : (g s).useq = s.useq
  port (s : State) : (g s).port = s.port
  requests (s : State) : (g s).requests = s.requests
  withAnswers (s : State) (x : List Answer) : g { s with answers := x } = { g s with answers := x }

theorem Internal.answers {g : State → State} (hg : Internal g) (s : State) : (g s).answers = s.answers :=
  (congrArg State.answers (hg.withAnswers s s.answers) :)

/-- What the first of two answers leads to: on, with an internal change, or to an error that ends the command. -/
inductive LeadsOn (mid : State → AfterFirst) : Prop where
  | goesOn {g : State → State} (hg : Internal g) (h : ∀ s, mid s = .goOn (g s)) : LeadsOn mid
  | stops {e : State → State} (he : ∀ s, Ends s (e s)) (hne : ∀ s, (e s).status ≠ 0)
      (h : ∀ s, mid s = .stop (e s)) : LeadsOn mid

/-- A two-request micro-sequence of `i`'s rule. -/
structure FollowsRule (i : Instr) (first : Request) (mid : Answer → State → AfterFirst) (second : State → Request)
    (finish : Answer → State → State) : Prop where
  scheduled (s : State) : scheduled s.t0 i = [first, second s]
  mid (a : Answer) : LeadsOn (mid a)
  finish (a : Answer) (s : State) : Ends s (finish a s)

/-- What a command is: no request, one, two, or two after a session test, as its rule lists them (R75). -/
inductive MicroSequence (i : Instr) : (State → State) → Prop where
  | atOnce {f : State → State} (hs : ∀ t0, scheduled t0 i = []) (hf : ∀ s, Ends s (f s)) : MicroSequence i f
  | oneRequest {r : Request} {finish : Answer → State → State} (hs : ∀ t0, scheduled t0 i = [r])
      (hf : ∀ a s, Ends s (finish a s)) : MicroSequence i (transact r finish)
  | twoRequests {first : Request} {mid : Answer → State → AfterFirst} {second : State → Request}
      {finish : Answer → State → State} (h : FollowsRule i first mid second finish) :
      MicroSequence i (twoRequests first mid second finish)
  | measurement {finish : Frame → State → State} (hn : needsSession i = true)
      (hs : ∀ t0, scheduled t0 i = [.devWrite shtCmd 2, .devRead shtFrameLen])
      (hf : ∀ f s, Ends s (finish f s)) : MicroSequence i (measure finish)

variable {i : Instr} {s t u : State}

theorem internal_id : Internal fun s => s := ⟨fun _ => rfl, fun _ => rfl, fun _ => rfl, fun _ => rfl, fun _ _ => rfl⟩

theorem internal_withT0 (v : Reg16) : Internal fun s => { s with t0 := v } :=
  ⟨fun _ => rfl, fun _ => rfl, fun _ => rfl, fun _ => rfl, fun _ _ => rfl⟩

/-- GETOBJTC's shift is internal (R161). -/
theorem internal_shift (ring : BitVec 3) (v : Reg16) (k : Sample) :
    Internal fun s => State.setRing ring ((s.ring ring).append k) { s with t0 := v } :=
  ⟨fun _ => rfl, fun _ => rfl, fun _ => rfl, fun _ => rfl, fun _ _ => rfl⟩

theorem deliver_ends (code : Code) (r0 r1 : BitVec 32) (s : State) : Ends s (deliver code r0 r1 s) :=
  ⟨rfl, rfl, rfl, rfl, rfl⟩

theorem respond_ends (r0 r1 : BitVec 32) (s : State) : Ends s (respond r0 r1 s) := deliver_ends _ _ _ s

theorem raiseE_ends (code : Code) (s : State) : Ends s (raiseE code s) := deliver_ends _ _ _ s

theorem decodeTemp_ends (f : Frame) (s : State) : Ends s (decodeTemp f s) := by
  unfold decodeTemp
  split
  · exact raiseE_ends _ s
  · exact respond_ends _ _ s

theorem decodeHum_ends (f : Frame) (s : State) : Ends s (decodeHum f s) := by
  unfold decodeHum
  split
  · exact raiseE_ends _ s
  · exact respond_ends _ _ s

theorem Ends.withFr {f : Frame} (h : Ends { s with fr := f } t) : Ends s t :=
  ⟨h.busy, h.port, h.answers, h.requests, h.t0⟩

theorem Ends.withSessErr {c : Code} (h : Ends { s with sessErr := c } t) : Ends s t :=
  ⟨h.busy, h.port, h.answers, h.requests, h.t0⟩

theorem Ends.withRing {r : BitVec 3} {v : SampleRing} (h : Ends (State.setRing r v s) t) : Ends s t :=
  ⟨h.busy, h.port, h.answers, h.requests, h.t0⟩

theorem frameRead_ends {finish : Frame → State → State} (hf : ∀ f s, Ends s (finish f s)) (a : Answer) (s : State) :
    Ends s (frameRead finish a s) := by
  unfold frameRead
  split
  · exact (raiseE_ends _ _).withFr
  · exact (hf _ _).withFr

/-- Past its session test a measurement is a two-request micro-sequence (R187). -/
theorem measure_followsRule {finish : Frame → State → State}
    (hs : ∀ t0, scheduled t0 i = [.devWrite shtCmd 2, .devRead shtFrameLen]) (hf : ∀ f s, Ends s (finish f s)) :
    FollowsRule i (.devWrite shtCmd 2) (fun a s => if a.cnt ≠ 2 then .stop (raiseE eWrite s) else .goOn s)
      (fun _ => .devRead shtFrameLen) (frameRead finish) where
  scheduled s := hs s.t0
  mid a := by
    by_cases hc : a.cnt ≠ 2
    · exact .stops (raiseE_ends eWrite) (by simp [eWrite]) fun _ => if_pos hc
    · exact .goesOn internal_id fun _ => if_neg hc
  finish := frameRead_ends hf

theorem shtinit_followsRule : FollowsRule .shtinit .devOpen
    (fun a s => if a.ok then .goOn s else .stop (raiseE eOpen { s with sessErr := eOpen }))
    (fun _ => .devSelect shtAddr)
    (fun b s => if b.ok then respond 0 0 { s with sessErr := codeOk }
      else raiseE eSelect { s with sessErr := eSelect }) where
  scheduled _ := rfl
  mid a := by
    cases a.ok with
    | true => exact .goesOn internal_id fun _ => rfl
    | false => exact .stops (fun s => (raiseE_ends eOpen _).withSessErr) (by simp [eOpen]) fun _ => rfl
  finish b s := by
    split
    · exact (respond_ends _ _ _).withSessErr
    · exact (raiseE_ends _ _).withSessErr

theorem readAndRespond_microSequence {id : BitVec 6} {ptr : Byte} {f : Reg16 → BitVec 32}
    (hs : ∀ t0, scheduled t0 i = [rdReg (slaveOf id) ptr]) : MicroSequence i (readAndRespond id ptr f) :=
  .oneRequest hs fun _ s => respond_ends _ _ s

theorem setField_microSequence {n : Nat} {id : BitVec 6} {m : Reg16} {lo : Nat} {v : BitVec n}
    (hs : ∀ t0, scheduled t0 i = setterRequests id m lo v t0) : MicroSequence i (setField id m lo v) :=
  .twoRequests ⟨fun s => hs s.t0, fun _ => .goesOn (internal_withT0 _) fun _ => rfl, fun _ s => respond_ends _ _ s⟩

/-- Every command is a micro-sequence of its rule. -/
theorem exec_microSequence (i : Instr) : ∃ f, (∀ s, exec i s = .next (f s)) ∧ MicroSequence i f := by
  cases i with
  | wrreg => exact ⟨_, fun _ => rfl, .oneRequest (fun _ => rfl) fun _ s => respond_ends _ _ s⟩
  | rdreg => exact ⟨_, fun _ => rfl, readAndRespond_microSequence fun _ => rfl⟩
  | swrst => exact ⟨_, fun _ => rfl, setField_microSequence fun _ => rfl⟩
  | getmode => exact ⟨readAndRespond _ _ _, fun _ => rfl, readAndRespond_microSequence fun _ => rfl⟩
  | setmode => exact ⟨_, fun _ => rfl, setField_microSequence fun _ => rfl⟩
  | getrate => exact ⟨readAndRespond _ _ _, fun _ => rfl, readAndRespond_microSequence fun _ => rfl⟩
  | setrate => exact ⟨_, fun _ => rfl, setField_microSequence fun _ => rfl⟩
  | getdrdyen => exact ⟨readAndRespond _ _ _, fun _ => rfl, readAndRespond_microSequence fun _ => rfl⟩
  | setdrdyen => exact ⟨_, fun _ => rfl, setField_microSequence fun _ => rfl⟩
  | getdrdy => exact ⟨readAndRespond _ _ _, fun _ => rfl, readAndRespond_microSequence fun _ => rfl⟩
  | clrdrdy => exact ⟨_, fun _ => rfl, setField_microSequence fun _ => rfl⟩
  | getmfgid => exact ⟨_, fun _ => rfl, readAndRespond_microSequence fun _ => rfl⟩
  | getdevid => exact ⟨_, fun _ => rfl, readAndRespond_microSequence fun _ => rfl⟩
  | getamb => exact ⟨_, fun _ => rfl, readAndRespond_microSequence fun _ => rfl⟩
  | getobj =>
    exact ⟨_, fun _ => rfl, .twoRequests ⟨fun _ => rfl, fun _ => .goesOn (internal_withT0 _) fun _ => rfl,
      fun _ s => respond_ends _ _ s⟩⟩
  | getobjtc =>
    exact ⟨_, fun _ => rfl, .twoRequests ⟨fun _ => rfl, fun _ => .goesOn (internal_shift _ _ _) fun _ => rfl,
      fun _ s => respond_ends _ _ s⟩⟩
  | ringrd => exact ⟨_, fun _ => rfl, .atOnce (fun _ => rfl) fun s => respond_ends _ _ s⟩
  | ringwr => exact ⟨_, fun _ => rfl, .atOnce (fun _ => rfl) fun _ => (respond_ends _ _ _).withRing⟩
  | ringclr => exact ⟨_, fun _ => rfl, .atOnce (fun _ => rfl) fun _ => (respond_ends _ _ _).withRing⟩
  | crc8 => exact ⟨_, fun _ => rfl, .atOnce (fun _ => rfl) fun s => respond_ends _ _ s⟩
  | crcchk =>
    refine ⟨_, fun _ => rfl, .atOnce (fun _ => rfl) fun s => ?_⟩
    split
    · exact raiseE_ends _ s
    · exact respond_ends _ _ s
  | shtinit => exact ⟨_, fun _ => rfl, .twoRequests shtinit_followsRule⟩
  | shttemp => exact ⟨_, fun _ => rfl, .measurement rfl (fun _ => rfl) decodeTemp_ends⟩
  | shthum => exact ⟨_, fun _ => rfl, .measurement rfl (fun _ => rfl) decodeHum_ends⟩

/-! ## The schedule (R61, R75, R221) -/

/-- `t` is what the schedule of `i` leaves of `s` in one step: `k` answers used, and the command ended or waiting. -/
def OnSchedule (i : Instr) (s t : State) : Prop :=
  ∃ k, k ≤ s.answers.length ∧ t.answers = s.answers.drop k ∧
    ((t.busy = false ∧ t.port = none ∧ t.requests = s.requests ++ (scheduled t.t0 i).take k ∧
      k ≤ (scheduled t.t0 i).length ∧ (t.status = 0 → k = (scheduled t.t0 i).length)) ∨
     (t.busy = true ∧ t.answers = [] ∧ t.useq.toNat = k ∧ t.port = (scheduled t.t0 i)[k]? ∧ t.port ≠ none ∧
      t.requests = s.requests ++ (scheduled t.t0 i).take (k + 1)))

/-- Command `i`, which started from `s`, has used `used` and stands in `u` before its next request. -/
structure HasUsed (i : Instr) (s : State) (used : List Answer) (u : State) : Prop where
  busy : u.busy = true
  port : u.port = none
  useq : u.useq.toNat = used.length
  answers : s.answers = used ++ u.answers
  requests : u.requests = s.requests ++ (scheduled u.t0 i).take used.length

variable {used : List Answer}

theorem State.Starting.busy (h : s.Starting) : s.busy = true := h.1

theorem State.Starting.useq (h : s.Starting) : s.useq = 0 := h.2.1

theorem State.Starting.port (h : s.Starting) : s.port = none := h.2.2

theorem State.Starting.hasUsed (h : s.Starting) (i : Instr) : HasUsed i s [] s :=
  ⟨h.busy, h.port, by simp [h.useq], rfl, by simp⟩

/-- An end here leaves the command on schedule, with status 0 only at the end of the schedule. -/
theorem HasUsed.ends (h : HasUsed i s used u) (ht : Ends u t) (hle : used.length ≤ (scheduled u.t0 i).length)
    (hst : t.status = 0 → used.length = (scheduled u.t0 i).length) : OnSchedule i s t := by
  refine ⟨used.length, by simp [h.answers], by simp [ht.answers, h.answers], .inl ⟨ht.busy, ht.port.trans h.port, ?_⟩⟩
  rw [ht.t0, ht.requests]
  exact ⟨h.requests, hle, hst⟩

/-- A wait for the next request of the schedule leaves the command on schedule. -/
theorem HasUsed.waits {r : Request} (h : HasUsed i s used u) (hr : (scheduled u.t0 i)[used.length]? = some r)
    (ha : u.answers = []) : OnSchedule i s (issue r u) := by
  refine ⟨used.length, by simp [h.answers], by simp [h.answers], .inr ⟨by simpa using h.busy, by simpa using ha, ?_⟩⟩
  simp [h.useq, h.port, hr, State.requestsWith, h.requests, List.take_add_one]

/-- The next request of the schedule, answered. -/
theorem HasUsed.answered {r : Request} {a : Answer} {rest : List Answer} (h : HasUsed i s used u)
    (hr : (scheduled u.t0 i)[used.length]? = some r) (ha : u.answers = a :: rest) (hlt : used.length < 7) :
    HasUsed i s (used ++ [a]) (afterAnswer u rest r) where
  busy := h.busy
  port := rfl
  useq := by
    change (u.useq + 1).toNat = (used ++ [a]).length
    rw [BitVec.toNat_add, h.useq, List.length_append]
    exact Nat.mod_eq_of_lt (Nat.succ_lt_succ hlt)
  answers := by simp [afterAnswer, h.answers, ha]
  requests := by simp [afterAnswer, State.requestsWith, h.port, h.requests, List.take_add_one, hr]

/-- An internal change leaves the command where it stands, if the requests made so far do not depend on it. -/
theorem HasUsed.internal {g : State → State} (h : HasUsed i s used u) (hg : Internal g)
    (hsch : (scheduled (g u).t0 i).take used.length = (scheduled u.t0 i).take used.length) :
    HasUsed i s used (g u) where
  busy := (hg.busy u).trans h.busy
  port := (hg.port u).trans h.port
  useq := by rw [hg.useq, h.useq]
  answers := by rw [hg.answers, h.answers]
  requests := by rw [hg.requests, h.requests, hsch]

/-- One request of the schedule, whose answer must leave the command on schedule. -/
theorem HasUsed.transact {r : Request} {next : Answer → State → State} (h : HasUsed i s used u)
    (hr : (scheduled u.t0 i)[used.length]? = some r) (hlt : used.length < 7)
    (hn : ∀ a v, HasUsed i s (used ++ [a]) v → OnSchedule i s (next a v)) : OnSchedule i s (transact r next u) := by
  rcases transact_cases r next u with ⟨ha, e⟩ | ⟨a, rest, ha, e⟩
  · rw [e]; exact h.waits hr ha
  · rw [e]; exact hn a _ (h.answered hr ha hlt)

/-- Two requests of the rule keep a starting command on schedule. -/
theorem FollowsRule.onSchedule {first : Request} {mid : Answer → State → AfterFirst} {second : State → Request}
    {finish : Answer → State → State} (hf : FollowsRule i first mid second finish) (hs : s.Starting) :
    OnSchedule i s (twoRequests first mid second finish s) := by
  rw [twoRequests, if_pos hs.useq]
  refine (hs.hasUsed i).transact (by simp [hf.scheduled]) (by simp) fun a v hone => ?_
  cases hf.mid a with
  | stops he hne hm =>
    rw [hm]
    exact hone.ends (he _) (by simp [hf.scheduled]) fun h0 => absurd h0 (hne _)
  | goesOn hg hm =>
    rw [hm]
    exact (hone.internal hg (by simp [hf.scheduled])).transact (by simp [hf.scheduled]) (by simp) fun b w htwo =>
      htwo.ends (hf.finish b _) (by simp [hf.scheduled]) fun _ => by simp [hf.scheduled]

theorem MicroSequence.onSchedule {f : State → State} (hf : MicroSequence i f) (hs : s.Starting) :
    OnSchedule i s (f s) := by
  cases hf with
  | atOnce hsch hend => exact (hs.hasUsed i).ends (hend s) (by simp) fun _ => by simp [hsch]
  | oneRequest hsch hend =>
    exact (hs.hasUsed i).transact (by simp [hsch]) (by simp) fun a v hone =>
      hone.ends (hend a _) (by simp [hsch]) fun _ => by simp [hsch]
  | twoRequests h => exact h.onSchedule hs
  | measurement hn hsch hend =>
    by_cases he : s.sessErr = 0
    · rw [measure_twoRequests (.inr he)]
      exact (measure_followsRule hsch hend).onSchedule hs
    · rw [measure_noSession hs.useq he]
      exact (hs.hasUsed i).ends (raiseE_ends _ s) (by simp) fun h0 => absurd h0 he

/-- Settles O19: every command is a micro-sequence of its rule. -/
theorem commandsFollowTheirSchedule : Obligations.CommandsFollowTheirSchedule := by
  intro i s t hs h
  obtain ⟨f, hexec, hf⟩ := exec_microSequence i
  cases (hexec s).symm.trans h
  exact hf.onSchedule hs

/-! ## Enough answers (R63) -/

/-- The length of a schedule does not depend on what T0 holds. -/
theorem scheduled_length (t0 t0' : Reg16) (i : Instr) : (scheduled t0 i).length = (scheduled t0' i).length := by
  cases i <;> rfl

/-- A command that is no longer busy has responded. -/
theorem CommandEffect.responded (h : CommandEffect i s t) (hs : s.busy = true) (ht : t.busy = false) : Responded t := by
  cases h with
  | waits c _ => simp [c.keeps.1, hs] at ht
  | ends code r0 r1 _ hz _ => exact ⟨rfl, rfl, rfl, hz⟩

/-- Settles O22: on schedule, a command that waits has used every answer, and here that is the whole schedule. -/
theorem answeredCommandsEnd : Obligations.AnsweredCommandsEnd := by
  intro i s hs hlen
  obtain ⟨f, hexec, hf⟩ := exec_microSequence i
  refine ⟨f s, hexec s, ?_⟩
  obtain ⟨k, _, hans, ⟨hb, hp, _⟩ | ⟨_, hnil, _, hport, hne, _⟩⟩ := hf.onSchedule hs
  · have hr := (exec_effect i s _ (hexec s)).responded hs.busy hb
    exact ⟨hb, hr.rspValid, hr.useq, hp⟩
  · have hall : s.answers.length ≤ k := List.drop_eq_nil_iff.1 (hans.symm.trans hnil)
    rw [scheduled_length s.t0 (f s).t0] at hlen
    exact absurd (hport.trans (List.getElem?_eq_none (hlen.trans hall))) hne

end Sys2Proof.Machine
end

section
/-! PROOFS. Waiting for an answer (spec/20_memory.md rules R63, R71), for each micro-sequence: without an answer the
block stays as it is, and answers that come one at a time lead where they would have led together. -/

namespace Sys2Proof.Machine

variable {i : Instr} {s t u : State}

/-! ## No answer (R63) -/

/-- With its request on the port and no answer, a two-request command stays as it is. -/
theorem twoRequests_unanswered {first : Request} {mid : Answer → State → AfterFirst} {second : State → Request}
    {finish : Answer → State → State} (hp : s.port ≠ none) (ha : s.answers = []) :
    twoRequests first mid second finish s = s := by
  by_cases hu : s.useq = 0
  · rw [twoRequests_nil hu ha, issue_of_port_ne _ hp]
  · rw [twoRequests_resumed hu, transact_nil ha, issue_of_port_ne _ hp]

theorem MicroSequence.unanswered {f : State → State} (hf : MicroSequence i f) (hw : Waiting i s)
    (ha : s.answers = []) : f s = s := by
  obtain ⟨hses, r, hport, hr, _⟩ := hw
  have hp : s.port ≠ none := by simp [hport]
  cases hf with
  | atOnce hsch _ => simp [hsch] at hr
  | oneRequest => rw [transact_nil ha, issue_of_port_ne _ hp]
  | twoRequests => exact twoRequests_unanswered hp ha
  | measurement hn => rw [measure_twoRequests (.inr (hses hn)), twoRequests_unanswered hp ha]

theorem step_of_busy (hr : s.rst = false) (hb : s.busy = true) : step s = runCur (dropRspValid s) := by
  rw [step, if_neg (by simp [hr]), if_pos hb]

theorem runCur_of_command (hd : decode s.cur = .command i) : runCur s = exec i s := by
  rw [runCur, hd]

/-- Settles O23: under the invariant a busy block waits for a request of its command's rule. -/
theorem unansweredRequestHoldsTheBlock : Obligations.UnansweredRequestHoldsTheBlock := by
  intro s hs hrst hb ha
  obtain ⟨_, _, ⟨hidle, _⟩ | ⟨_, hv, i, hd, hw⟩⟩ := (blockInv_iff s).1 hs
  · simp [hb] at hidle
  · obtain ⟨f, hexec, hf⟩ := exec_microSequence i
    have hdrop : dropRspValid s = s := by rw [dropRspValid, ← hv]
    rw [step_of_busy hrst hb, hdrop, runCur_of_command hd, hexec, hf.unanswered hw ha]

/-! ## Answers one at a time (R71) -/

/-- A request that stands on the port is not issued again, whatever answers have come. -/
theorem issue_issue (r : Request) (s : State) (x : List Answer) :
    issue r { issue r s with answers := x } = issue r { s with answers := x } := by
  unfold issue
  split <;> simp [*]

/-- A request issued earlier is answered as one issued now. -/
theorem transact_issue (r : Request) (next : Answer → State → State) (s : State) (x : List Answer) :
    transact r next { issue r s with answers := x } = transact r next { s with answers := x } := by
  unfold transact
  cases x with
  | nil => exact issue_issue r s []
  | cons a rest => exact congrArg (fun u => next a (takeAnswer rest u)) (issue_issue r s (a :: rest))

/-- `f`, stopped for want of an answer after none or one, goes on as if all answers had been there. -/
structure Resumes (f : State → State) (s : State) : Prop where
  unanswered (more : List Answer) : (f { s with answers := [] }).busy = true →
    f { f { s with answers := [] } with answers := more } = f { s with answers := more }
  afterOne (a : Answer) (more : List Answer) : (f { s with answers := [a] }).busy = true →
    f { f { s with answers := [a] } with answers := more } = f { s with answers := a :: more }

/-- A command that never stops has nothing to resume. -/
theorem resumes_of_ends {f : State → State} (h : ∀ x, (f { s with answers := x }).busy = false) : Resumes f s :=
  ⟨fun _ hb => absurd hb (by simp [h]), fun _ _ hb => absurd hb (by simp [h])⟩

theorem transact_resumes {r : Request} {finish : Answer → State → State} (hf : ∀ a s, Ends s (finish a s)) (s : State) :
    Resumes (transact r finish) s where
  unanswered more _ := transact_issue r finish { s with answers := [] } more
  afterOne a more hb := by
    rw [transact_cons rfl, (hf a _).busy] at hb
    cases hb

section
variable {first : Request} {mid : Answer → State → AfterFirst} {second : State → Request}
  {finish : Answer → State → State}

/-- The second request depends on T0 alone. -/
theorem FollowsRule.second_congr (hf : FollowsRule i first mid second finish) (h : t.t0 = s.t0) :
    second t = second s := by
  have hsame : [first, second t] = [first, second s] := by rw [← hf.scheduled, ← hf.scheduled, h]
  simpa using hsame

/-- With the first answer taken, the command goes on from what it left, whatever answers follow. -/
theorem twoRequests_goesOn {g : State → State} {a : Answer} (hu : s.useq = 0) (hg : Internal g)
    (hm : ∀ s, mid a s = .goOn (g s)) (more : List Answer) :
    twoRequests first mid second finish { s with answers := a :: more } =
      transact (second { g (afterAnswer s [] first) with answers := more }) finish
        { g (afterAnswer s [] first) with answers := more } := by
  have hafter : g (afterAnswer { s with answers := a :: more } more first) =
      { g (afterAnswer s [] first) with answers := more } := hg.withAnswers (afterAnswer s [] first) more
  rw [twoRequests_goOn (s := { s with answers := a :: more }) hu rfl (hm _), hafter]

/-- Stopped at its second request, the command goes on with it. -/
theorem FollowsRule.second_resumes (hf : FollowsRule i first mid second finish) (hu : u.useq ≠ 0)
    (more : List Answer) :
    twoRequests first mid second finish
        { issue (second { u with answers := [] }) { u with answers := [] } with answers := more } =
      transact (second { u with answers := more }) finish { u with answers := more } := by
  rw [twoRequests_resumed (by simpa using hu),
    hf.second_congr (t := { issue _ _ with answers := more }) (s := u) (by simp),
    hf.second_congr (t := { u with answers := [] }) (s := u) rfl,
    hf.second_congr (t := { u with answers := more }) (s := u) rfl]
  exact transact_issue _ _ { u with answers := [] } more

theorem FollowsRule.resumes (hf : FollowsRule i first mid second finish) (hu : s.useq = 0) :
    Resumes (twoRequests first mid second finish) s where
  unanswered more _ := by
    rw [twoRequests_nil (s := { s with answers := [] }) hu rfl]
    unfold Machine.twoRequests
    rw [if_pos (by simpa using hu), if_pos (by simpa using hu)]
    exact transact_issue _ _ { s with answers := [] } more
  afterOne a more hb := by
    cases hf.mid a with
    | stops he _ hm =>
      rw [twoRequests_stop (s := { s with answers := [a] }) hu rfl (hm _), (he _).busy] at hb
      cases hb
    | goesOn hg hm =>
      rw [twoRequests_goesOn hu hg hm, twoRequests_goesOn hu hg hm, transact_nil rfl]
      refine hf.second_resumes ?_ more
      simp [hg.useq, afterAnswer, hu]

end

/-- A measurement in a usable session resumes as its two requests, since it keeps SESS_ERR; in another it is over. -/
theorem measure_resumes {finish : Frame → State → State} (hkeep : ∀ u, (measure finish u).sessErr = u.sessErr)
    (hs : ∀ t0, scheduled t0 i = [.devWrite shtCmd 2, .devRead shtFrameLen]) (hf : ∀ f s, Ends s (finish f s))
    (hu : s.useq = 0) : Resumes (measure finish) s := by
  by_cases he : s.sessErr = 0
  · have htwo := (measure_followsRule hs hf).resumes hu
    have heq : ∀ x, measure finish { s with answers := x } = _ := fun x => measure_twoRequests (.inr he)
    have hagain : ∀ x y, measure finish { measure finish { s with answers := x } with answers := y } = _ :=
      fun x y => measure_twoRequests (.inr ((hkeep _).trans he))
    refine ⟨fun more hb => ?_, fun a more hb => ?_⟩
    · rw [hagain, heq, heq]
      exact htwo.unanswered more (heq _ ▸ hb)
    · rw [hagain, heq, heq]
      exact htwo.afterOne a more (heq _ ▸ hb)
  · refine resumes_of_ends fun x => ?_
    rw [measure_noSession (s := { s with answers := x }) hu he, raiseE_busy]

theorem MicroSequence.resumes {f : State → State} (hf : MicroSequence i f)
    (hkeep : needsSession i = true → ∀ u, (f u).sessErr = u.sessErr) (hu : s.useq = 0) : Resumes f s := by
  cases hf with
  | atOnce _ hend => exact resumes_of_ends fun _ => (hend _).busy
  | oneRequest _ hend => exact transact_resumes hend s
  | twoRequests h => exact h.resumes hu
  | measurement hn hsch hend => exact measure_resumes (hkeep hn) hsch hend hu

/-- A measurement keeps SESS_ERR (R28). -/
theorem exec_keeps_sessErr (hn : needsSession i = true) (h : exec i s = .next t) : t.sessErr = s.sessErr := by
  rcases (exec_effect i s t h).sessErr with e | ⟨rfl, _⟩
  · exact e
  · cases hn

/-- Settles O24: every micro-sequence resumes where it stopped. -/
theorem answersMayComeOneAtATime : Obligations.AnswersMayComeOneAtATime := by
  intro i s m hs
  obtain ⟨f, hexec, hf⟩ := exec_microSequence i
  have hres : Resumes f s := hf.resumes (fun hn u => exec_keeps_sessErr hn (hexec u)) hs.useq
  simp only [hexec]
  refine ⟨fun more hm hb => ?_, fun a more hm hb => ?_⟩
  · cases hm
    exact congrArg Host.Outcome.next (hres.unanswered more hb)
  · cases hm
    exact congrArg Host.Outcome.next (hres.afterOne a more hb)

end Sys2Proof.Machine
end

section
/-! PROOFS. The encoding (spec/30_encoding.md rules R94 to R101): the opcode alone tells two rows of the map apart, so a
word has at most one row; a row's fields are the bits its mask leaves free, so a legal word is put together again from
them; and a well-formed line is the written form of a command. -/

namespace Sys2Proof

variable {w : CmdWord} {r q : OpcodeRow} {i : Instr} {why : IllegalWord}

/-! ## Rows and their opcodes (R97) -/

theorem opcodeMap_masks_fix_opcode : ∀ r ∈ opcodeMap, opcOf r.mask = BitVec.allOnes 8 := by decide

theorem opcodeMap_opcodes_nodup : (opcodeMap.map fun r => opcOf r.bits).Nodup := by decide

/-- A word that satisfies a row has the row's opcode. -/
theorem opcOf_of_row (hr : r ∈ opcodeMap) (hw : w &&& r.mask = r.bits) : opcOf w = opcOf r.bits := by
  have hm : r.mask.extractLsb' 40 8 = BitVec.allOnes 8 := opcodeMap_masks_fix_opcode r hr
  rw [← hw, opcOf, opcOf, BitVec.extractLsb'_and, hm, BitVec.and_allOnes]

/-- Rows later in the map have another opcode, so they share no word with the row. -/
theorem opcodeMap_exclusive :
    opcodeMap.Pairwise fun r q => ∀ w : CmdWord, ¬(w &&& r.mask = r.bits ∧ w &&& q.mask = q.bits) :=
  (List.pairwise_map.1 opcodeMap_opcodes_nodup).imp_of_mem fun hr hq hne _ ⟨h, h'⟩ =>
    hne ((opcOf_of_row hr h).symm.trans (opcOf_of_row hq h'))

/-! ## The decoder, said once (R97 to R99) -/

theorem decode_eq_command_iff : decode w = .command i ↔ ∃ r ∈ opcodeMap, w &&& r.mask = r.bits ∧ r.build w = i := by
  refine ⟨row_of_decode, ?_⟩
  rintro ⟨r, hr, hw, rfl⟩
  have hp : opcodeMap.Pairwise fun r q => ¬(r.holds w = true ∧ q.holds w = true) :=
    opcodeMap_exclusive.imp fun h => by simpa only [OpcodeRow.holds_iff] using h w
  rw [decode, find_row hp hr ((r.holds_iff w).2 hw)]

theorem decode_eq_illegal_iff :
    decode w = .illegal why ↔ (∀ r ∈ opcodeMap, w &&& r.mask ≠ r.bits) ∧ illegalReason w = why := by
  have hnone : opcodeMap.find? (fun r => r.holds w) = none ↔ ∀ r ∈ opcodeMap, w &&& r.mask ≠ r.bits := by
    simp only [List.find?_eq_none, OpcodeRow.holds_iff, ne_eq]
  rw [← hnone, decode]
  cases opcodeMap.find? (fun r => r.holds w) <;> simp

/-- `OPC` of the word is one of the 24 listed values (R99). -/
def OpcodeListed (w : CmdWord) : Prop := ∃ r ∈ opcodeMap, opcOf w = opcOf r.bits

theorem opcodeMap_any_iff : opcodeMap.any (fun r => opcOf r.bits == opcOf w) = true ↔ OpcodeListed w := by
  simp only [OpcodeListed, List.any_eq_true, beq_iff_eq, eq_comm (a := opcOf w)]

theorem illegalReason_eq_reservedBitSet_iff : illegalReason w = .reservedBitSet ↔ OpcodeListed w := by
  rw [illegalReason, ← opcodeMap_any_iff]
  cases opcodeMap.any _ <;> simp

theorem illegalReason_eq_unassignedOpcode_iff : illegalReason w = .unassignedOpcode ↔ ¬ OpcodeListed w := by
  rw [illegalReason, ← opcodeMap_any_iff]
  cases opcodeMap.any _ <;> simp

/-! ## The round trip from a command (R95) -/

theorem encode_satisfies_its_row (i : Instr) : Laws.EncodesIntoItsRow.Statement i := by
  cases i with
  | wrreg => exact Laws.EncodesIntoItsRow.wrreg ..
  | rdreg => exact Laws.EncodesIntoItsRow.rdreg ..
  | swrst => exact Laws.EncodesIntoItsRow.swrst ..
  | getmode => exact Laws.EncodesIntoItsRow.getmode ..
  | setmode => exact Laws.EncodesIntoItsRow.setmode ..
  | getrate => exact Laws.EncodesIntoItsRow.getrate ..
  | setrate => exact Laws.EncodesIntoItsRow.setrate ..
  | getdrdyen => exact Laws.EncodesIntoItsRow.getdrdyen ..
  | setdrdyen => exact Laws.EncodesIntoItsRow.setdrdyen ..
  | getdrdy => exact Laws.EncodesIntoItsRow.getdrdy ..
  | clrdrdy => exact Laws.EncodesIntoItsRow.clrdrdy ..
  | getmfgid => exact Laws.EncodesIntoItsRow.getmfgid ..
  | getdevid => exact Laws.EncodesIntoItsRow.getdevid ..
  | getamb => exact Laws.EncodesIntoItsRow.getamb ..
  | getobj => exact Laws.EncodesIntoItsRow.getobj ..
  | getobjtc => exact Laws.EncodesIntoItsRow.getobjtc ..
  | ringrd => exact Laws.EncodesIntoItsRow.ringrd ..
  | ringwr => exact Laws.EncodesIntoItsRow.ringwr ..
  | ringclr => exact Laws.EncodesIntoItsRow.ringclr ..
  | crc8 => exact Laws.EncodesIntoItsRow.crc8 ..
  | crcchk => exact Laws.EncodesIntoItsRow.crcchk ..
  | shtinit => exact Laws.EncodesIntoItsRow.shtinit
  | shttemp => exact Laws.EncodesIntoItsRow.shttemp
  | shthum => exact Laws.EncodesIntoItsRow.shthum

theorem decode_encode (i : Instr) : decode (encode i) = .command i :=
  decode_eq_command_iff.2 (encode_satisfies_its_row i)

/-- Settles O1: a command's word satisfies the row that builds the command back, and a row that holds decides. -/
theorem decodeOfEncodeIsTheCommand : Obligations.DecodeOfEncodeIsTheCommand := decode_encode

/-! ## The round trip from a word (R94, R98) -/

/-- A field put back in its place is the word under the field's mask. -/
theorem place_extract (lo n : Nat) (w : CmdWord) :
    place lo (w.extractLsb' lo n) = w &&& place lo (BitVec.allOnes n) := by
  apply BitVec.eq_of_getLsbD_eq
  intro k hk
  simp only [place_getLsbD, BitVec.getLsbD_and, BitVec.getLsbD_extractLsb', BitVec.getLsbD_allOnes, hk, decide_true,
    Bool.true_and]
  by_cases h : k < lo
  · simp [h]
  · simp [h, show lo + (k - lo) = k by omega, Bool.and_comm]

/-- The row's command takes every bit of a word that the row's mask leaves free, and no other. -/
def OpcodeRow.TakesFreeBits (r : OpcodeRow) : Prop := ∀ w, encode (r.build w) = r.bits ||| w &&& ~~~r.mask

/-- A row's fields, put back, are the word under the fields' masks, and these are together the bits the row leaves
free. -/
theorem opcodeMap_takesFreeBits : ∀ r ∈ opcodeMap, r.TakesFreeBits := by
  have hnone : ~~~0xFFFFFFFFFFFF#48 = 0#48 := rfl
  simp only [opcodeMap, opcodeRowsTmp006, opcodeRowsRing, opcodeRowsSht31, List.forall_mem_append, List.forall_mem_cons,
    List.not_mem_nil, false_implies, implies_true, and_true, OpcodeRow.TakesFreeBits, encode, idOf, addrOf, ringOf,
    idxOf, lenOf, b0Of, b1Of, b2Of, dataOf, val17Of, val3Of, val1Of, place_extract, BitVec.or_assoc,
    ← BitVec.and_or_distrib_left, hnone, BitVec.and_zero]
  and_intros <;> exact fun _ => rfl

/-- Settles O2: a word of a row is the row's fixed bits and the free bits, and the row's command takes these. -/
theorem legalWordIsTheEncodingOfItsCommand : Obligations.LegalWordIsTheEncodingOfItsCommand := by
  intro w i h
  obtain ⟨r, hr, hw, rfl⟩ := row_of_decode h
  calc encode (r.build w)
    _ = w &&& r.mask ||| w &&& ~~~r.mask := by rw [opcodeMap_takesFreeBits r hr, hw]
    _ = w := by rw [← BitVec.and_or_distrib_left, BitVec.or_not_self, BitVec.and_allOnes]

/-! ## Legal and illegal words (R97, R99) -/

/-- Settles O3: rows have different opcodes, and decoding finds the row that holds. -/
theorem eachWordMatchesAtMostOneRow : Obligations.EachWordMatchesAtMostOneRow :=
  ⟨rfl, opcodeMap_exclusive, fun _ _ => decode_eq_command_iff⟩

/-- The word's opcode names at most one row. -/
theorem row_eq_of_opcOf_eq (hr : r ∈ opcodeMap) (hq : q ∈ opcodeMap) (h : opcOf r.bits = opcOf q.bits) : r = q :=
  List.inj_on_of_nodup_map opcodeMap_opcodes_nodup hr hq h

/-- Settles O4: with an unassigned opcode no row can hold, and with a listed one only its own row can. -/
theorem illegalWordsHaveOneOfTwoCauses : Obligations.IllegalWordsHaveOneOfTwoCauses := by
  intro w
  rw [decode_eq_illegal_iff, decode_eq_illegal_iff, illegalReason_eq_unassignedOpcode_iff,
    illegalReason_eq_reservedBitSet_iff]
  refine ⟨⟨?_, ?_⟩, ⟨?_, ?_⟩⟩
  · rintro ⟨_, hlist⟩ r hr hopc
    exact hlist ⟨r, hr, hopc⟩
  · intro hopc
    exact ⟨fun r hr hw => hopc r hr (opcOf_of_row hr hw), fun ⟨r, hr, h⟩ => hopc r hr h⟩
  · rintro ⟨hoff, r, hr, hopc⟩
    exact ⟨r, hr, hopc, hoff r hr⟩
  · rintro ⟨r, hr, hopc, hoff⟩
    refine ⟨fun q hq hw => hoff ?_, r, hr, hopc⟩
    rwa [row_eq_of_opcOf_eq hr hq (hopc.symm.trans (opcOf_of_row hq hw))]

/-- Settles O6: each word is the word of its command. -/
theorem specExampleWordsDecodeAsWritten : Obligations.SpecExampleWordsDecodeAsWritten :=
  ⟨decode_encode (.wrreg 3 0x02 0x7400), decode_encode (.rdreg 1 0xFE), decode_encode (.setmode 0 7),
    decode_encode (.setdrdyen 0 1), decode_encode (.getobjtc 1 2), decode_encode (.ringwr 1 0 47704),
    decode_encode (.ringclr 7), decode_encode (.crc8 2 0xBE 0xEF 0x00), decode_encode (.crcchk 0xBE 0xEF 0x92),
    decode_encode .shtinit⟩

/-! ## The written form (R101) -/

theorem wellFormed_line (i : Instr) : i.line.wellFormed = true := by
  cases i with
  | wrreg => exact Laws.OperandsFit.wrreg ..
  | rdreg => exact Laws.OperandsFit.rdreg ..
  | swrst => exact Laws.OperandsFit.swrst ..
  | getmode => exact Laws.OperandsFit.getmode ..
  | setmode => exact Laws.OperandsFit.setmode ..
  | getrate => exact Laws.OperandsFit.getrate ..
  | setrate => exact Laws.OperandsFit.setrate ..
  | getdrdyen => exact Laws.OperandsFit.getdrdyen ..
  | setdrdyen => exact Laws.OperandsFit.setdrdyen ..
  | getdrdy => exact Laws.OperandsFit.getdrdy ..
  | clrdrdy => exact Laws.OperandsFit.clrdrdy ..
  | getmfgid => exact Laws.OperandsFit.getmfgid ..
  | getdevid => exact Laws.OperandsFit.getdevid ..
  | getamb => exact Laws.OperandsFit.getamb ..
  | getobj => exact Laws.OperandsFit.getobj ..
  | getobjtc => exact Laws.OperandsFit.getobjtc ..
  | ringrd => exact Laws.OperandsFit.ringrd ..
  | ringwr => exact Laws.OperandsFit.ringwr ..
  | ringclr => exact Laws.OperandsFit.ringclr ..
  | crc8 => exact Laws.OperandsFit.crc8 ..
  | crcchk => exact Laws.OperandsFit.crcchk ..
  | shtinit => exact Laws.OperandsFit.shtinit
  | shttemp => exact Laws.OperandsFit.shttemp
  | shthum => exact Laws.OperandsFit.shthum

theorem assemble_line (i : Instr) : i.line.assemble = some i := by
  rw [Line.assemble, if_pos (wellFormed_line i)]
  cases i <;> simp [Instr.line]

theorem operandsFit_nil_iff {args : List Nat} : operandsFit [] args = true ↔ args = [] := by
  cases args <;> simp [operandsFit]

theorem operandsFit_cons_iff {n : Nat} {ns args : List Nat} : operandsFit (n :: ns) args = true ↔
    ∃ a rest, args = a :: rest ∧ a < 2 ^ n ∧ operandsFit ns rest = true := by
  cases args <;> simp [operandsFit]

/-- A well-formed line has its mnemonic's operand count, which is all the table of R101 asks of it. -/
theorem assemble_isSome_of_wellFormed {l : Line} (h : l.wellFormed = true) : l.assemble.isSome = true := by
  rw [Line.assemble, if_pos h]
  obtain ⟨op, args⟩ := l
  cases op <;> simp only [Line.wellFormed, Mnemonic.operandWidths, operandsFit_cons_iff, operandsFit_nil_iff] at h
  case SHTINIT | SHTTEMP | SHTHUM =>
    subst h
    rfl
  case SWRST | GETMODE | GETRATE | GETDRDYEN | GETDRDY | CLRDRDY | GETMFGID | GETDEVID | GETAMB | GETOBJ | RINGCLR =>
    obtain ⟨_, _, rfl, _, rfl⟩ := h
    rfl
  case RDREG | SETMODE | SETRATE | SETDRDYEN | GETOBJTC | RINGRD =>
    obtain ⟨_, _, rfl, _, _, _, rfl, _, rfl⟩ := h
    rfl
  case WRREG | RINGWR | CRCCHK =>
    obtain ⟨_, _, rfl, _, _, _, rfl, _, _, _, rfl, _, rfl⟩ := h
    rfl
  case CRC8 =>
    obtain ⟨_, _, rfl, _, _, _, rfl, _, _, _, rfl, _, _, _, rfl, _, rfl⟩ := h
    rfl

/-- Settles O7: a command's line assembles to it, and the check decides whether any line assembles. -/
theorem linesAssembleExactlyWhenOperandsFit : Obligations.LinesAssembleExactlyWhenOperandsFit := by
  refine ⟨assemble_line, fun l => ?_⟩
  cases h : l.wellFormed with
  | true => exact assemble_isSome_of_wellFormed h
  | false => simp [Line.assemble, h]

end Sys2Proof
end

section
/-! PROOFS. The command port (spec/30_encoding.md rules R91, R98, R99): what a step runs, what an illegal word leaves
behind, and that a busy block reads no word. -/

namespace Sys2Proof.Machine

/-! ## What a step runs (R91, R98, R99) -/

variable {s : State} {w : CmdWord} {rest : List CmdWord} {why : IllegalWord}

theorem step_of_idle (hr : s.rst = false) (hb : s.busy = false) (hc : s.cmds = []) : step s = .next (dropRspValid s) := by
  simp [step, hr, hb, hc]

theorem step_of_word (hr : s.rst = false) (hb : s.busy = false) (hc : s.cmds = w :: rest) :
    step s = runCur (accept w rest (dropRspValid s)) := by
  simp [step, hr, hb, hc]

theorem runCur_of_illegal (hd : decode s.cur = .illegal why) : runCur s = .next (raiseE eIllegal s) := by
  rw [runCur, hd]

/-- Settles O5: the word is accepted and its error raised, with nothing run in between. -/
theorem illegalWordAnswersMinus128 : Obligations.IllegalWordAnswersMinus128 := by
  intro s w rest why hr hb hc hd
  exact (step_of_word hr hb hc).trans (runCur_of_illegal (s := accept w rest (dropRspValid s)) hd)

/-- Settles O8: one clause for each way a step can start. -/
theorem stepRunsTheDecodedCommand : Obligations.StepRunsTheDecodedCommand := by
  intro s hr
  refine ⟨fun w rest i hb hc hd => ?_, fun i hb hd => ?_, fun hb hc => step_of_idle hr hb hc⟩
  · exact (step_of_word hr hb hc).trans (runCur_of_command (s := accept w rest (dropRspValid s)) hd)
  · exact (step_of_busy hr hb).trans (runCur_of_command (s := dropRspValid s) hd)

/-! ## The words behind the one in CUR (R91, R265) -/

/-- `s'` is `s` with other words on the command port. -/
def WordsReplaced (c : List CmdWord) (s s' : State) : Prop := s' = { s with cmds := c }

theorem wordsReplaced_lockstep (c : List CmdWord) : Lockstep (WordsReplaced c) where
  useq h := by rw [h]
  answers h := by rw [h]
  issue r h := by rw [h, WordsReplaced, issue_eq, issue_eq]; rfl
  takeAnswer _ h := by rw [h]; rfl
  deliver _ _ _ h := by rw [h]; rfl
  withT0 _ h := by rw [h]; rfl
  withFr _ h := by rw [h]; rfl

theorem wordsReplaced_ringLockstep (c : List CmdWord) : RingLockstep (WordsReplaced c) where
  rings h := by rw [h]
  setRing _ _ h := by rw [h]; rfl

theorem wordsReplaced_sessionLockstep (c : List CmdWord) : SessionLockstep (WordsReplaced c) where
  sessErr h := by rw [h]
  withSessErr _ h := by rw [h]; rfl

/-- What stands in CUR runs alike whatever words are on the command port. -/
theorem runCur_ignores_words (s : State) (c : List CmdWord) :
    ∃ t, runCur s = .next t ∧ t.cmds = s.cmds ∧ runCur { s with cmds := c } = .next { t with cmds := c } := by
  cases hd : decode s.cur with
  | command i =>
    obtain ⟨t, _, he, he', rfl⟩ := exec_lockstep (i := i) (wordsReplaced_lockstep c)
      (fun _ => wordsReplaced_ringLockstep c) (fun _ => wordsReplaced_sessionLockstep c) (s := s) rfl fun _ => rfl
    obtain ⟨_, _, _, hcmds, _⟩ := (exec_effect i s t he).keeps
    exact ⟨t, (runCur_of_command hd).trans he, hcmds, (runCur_of_command (s := { s with cmds := c }) hd).trans he'⟩
  | illegal why =>
    exact ⟨_, runCur_of_illegal hd, rfl, runCur_of_illegal (s := { s with cmds := c }) hd⟩

/-- Settles O9: a busy block's step runs CUR. -/
theorem busyBlockIgnoresTheCommandPort : Obligations.BusyBlockIgnoresTheCommandPort := by
  intro s c hr hb
  rw [step_of_busy hr hb, step_of_busy (s := { s with cmds := c }) hr hb]
  exact runCur_ignores_words (dropRspValid s) c

end Sys2Proof.Machine
end

section
/-! PROOFS. The words of the five setters (spec/41_config.md rules R130 to R140): on each field the merged word is the
word its rule writes out, so the micro-sequence in closed form is the rule. -/

namespace Sys2Proof.Machine

variable {i : Instr} {id : BitVec 6} {m t0 w : Reg16} {f : Reg16 → Reg16} {lo n : Nat}

/-! ## The merged word, written out (R130) -/

/-- A value that fills its field needs no mask once it is shifted into place. -/
theorem mergeField_eq_placed (hm : IsFieldMask m lo n) (v : BitVec n) (t0 : Reg16) :
    mergeField m lo v t0 = (t0 &&& ~~~m) ||| (v.setWidth 16 <<< lo) := by
  have hfits : (v.setWidth 16 <<< lo) &&& m = v.setWidth 16 <<< lo := by
    apply BitVec.eq_of_getLsbD_eq
    intro k hk
    rw [BitVec.getLsbD_and, hm.2 k hk, BitVec.getLsbD_shiftLeft, BitVec.getLsbD_setWidth]
    by_cases hlo : k < lo
    · simp [hlo]
    · by_cases hhi : k < lo + n
      · simp [hhi, Nat.le_of_not_lt hlo]
      · simp [BitVec.getLsbD_of_ge v (k - lo) (by omega)]
  rw [mergeField, hfits]

/-- Clearing bits before setting the same bits does nothing. -/
theorem and_not_or_self (t0 m : Reg16) : (t0 &&& ~~~m) ||| m = t0 ||| m := by
  apply BitVec.eq_of_getLsbD_eq
  intro k hk
  simp only [BitVec.getLsbD_or, BitVec.getLsbD_and, BitVec.getLsbD_not, hk, decide_true, Bool.true_and]
  cases m.getLsbD k <;> simp

/-! ## The requests of a setter, written out (R132, R134, R136, R138, R140) -/

/-- The bytes of a written word tell it apart from every other word. -/
theorem tmpWrite_inj {ptr : Byte} {v w : Reg16} (h : tmpWrite id ptr v = tmpWrite id ptr w) : v = w := by
  obtain ⟨hhi, hlo⟩ : hiByte v = hiByte w ∧ loByte v = loByte w := by
    simpa [tmpWrite, hiByte, loByte] using h
  rw [← be16_hiByte_loByte v, hhi, hlo, be16_hiByte_loByte]

/-- Setting a field of the configuration register is its read, then its write with the value in place. -/
theorem setterRequests_of_configField (h : (m, lo, n) ∈ configFields) (v : BitVec n) (t0 : Reg16) :
    setterRequests id m lo v t0 =
      [tmpRead id 0x02, tmpWrite id 0x02 ((t0 &&& ~~~m) ||| (v.setWidth 16 <<< lo))] := by
  rw [← mergeField_eq_placed (configFields_masks _ h)]
  rfl

/-- The schedule of a setter is the read and the write of its rule. -/
theorem scheduled_setter (h : setter i = some (id, m, f)) (t0 : Reg16) :
    scheduled t0 i = [tmpRead id 0x02, tmpWrite id 0x02 (f t0)] := by
  cases i with
  | swrst =>
    cases h
    beta_reduce
    rw [← and_not_or_self]
    exact setterRequests_of_configField (by decide) 1#1 t0
  | setmode _ mode => cases h; exact setterRequests_of_configField (by decide) mode t0
  | setrate _ rate => cases h; exact setterRequests_of_configField (by decide) rate t0
  | setdrdyen _ en => cases h; exact setterRequests_of_configField (by decide) en t0
  | clrdrdy =>
    cases h
    beta_reduce
    rw [← BitVec.or_zero (x := t0 &&& 0xFF7F)]
    exact setterRequests_of_configField (by decide) 0#1 t0
  | _ => cases h

theorem mergeField_of_setterRequests {v : BitVec n}
    (h : setterRequests id m lo v t0 = [tmpRead id 0x02, tmpWrite id 0x02 w]) : mergeField m lo v t0 = w :=
  tmpWrite_inj (List.cons.inj (List.cons.inj h).2).1

/-- Settles O33: a setter is `setField`, whose closed forms hold the merged word, and that word is the one the rule
writes out. -/
theorem settersReadThenWrite : Obligations.SettersReadThenWrite := by
  intro i id m f s hset
  obtain ⟨n, lo, v, hexec, hsch⟩ := exec_setter hset
  have hword : ∀ t0, mergeField m lo v t0 = f t0 := fun t0 =>
    mergeField_of_setterRequests ((hsch t0).symm.trans (scheduled_setter hset t0))
  simp only [hexec, ← hword]
  refine ⟨fun a b rest hu ha => ?_, fun a hu ha => ?_, fun b rest hu ha => ?_⟩
  · rw [setField_answered hu ha]
  · rw [setField_waits hu ha]
  · rw [setField_resumed_answered hu ha]

end Sys2Proof.Machine
end

section
/-! PROOFS. The fixed-point decoder (spec/42_decode.md): the signed code of a die temperature, the exact integers each
result register holds, what the consumer reads from them, and GETOBJ in closed form. -/

namespace Sys2Proof.Machine

/-! ## The die-temperature code (R150) -/

theorem reg16_toInt_range (v : Reg16) : -32768 ≤ v.toInt ∧ v.toInt ≤ 32767 := ⟨v.le_toInt, v.toInt_le⟩

theorem dieCode_toInt_range (raw : Reg16) : -8192 ≤ (dieCode raw).toInt ∧ (dieCode raw).toInt ≤ 8191 :=
  ⟨(dieCode raw).le_toInt, (dieCode raw).toInt_le⟩

/-- The quotient of a 16-bit value by 4 fits 14 bits, so dropping the upper two bits loses nothing. -/
theorem dieCode_toInt (raw : Reg16) : (dieCode raw).toInt = raw.toInt / 4 := by
  obtain ⟨hlo, hhi⟩ := reg16_toInt_range raw
  have hshift : (raw.sshiftRight 2).toInt = raw.toInt / 4 := by
    rw [BitVec.toInt_sshiftRight, Int.shiftRight_eq_div_pow]; rfl
  rw [dieCode, ← BitVec.signExtend_eq_setWidth_of_le _ (by decide),
    BitVec.toInt_signExtend_eq_toInt_bmod_of_le _ (by decide), hshift]
  apply Int.bmod_eq_of_le <;> omega

theorem dieCode_congr {raw raw' : Reg16} (h : raw'.extractLsb' 2 14 = raw.extractLsb' 2 14) : dieCode raw' = dieCode raw := by
  rw [dieCode_extract, dieCode_extract, h]

/-- Settles O37: the code is a slice of the register value, and the results are functions of the code. -/
theorem dieCodeIsTheTopFourteenBits : Obligations.DieCodeIsTheTopFourteenBits := by
  intro raw
  obtain ⟨hlo, hhi⟩ := dieCode_toInt_range raw
  refine ⟨fun k hk => ?_, dieCode_toInt raw, hlo, hhi, fun raw' h => ?_⟩
  · rw [dieCode_extract, BitVec.getLsbD_extractLsb', Nat.add_comm]
    simp [hk]
  · simp only [t32, k160, k160Int, dieCode_congr h, and_self]

/-! ## The results as integers (R151 to R154) -/

/-- Sign extension keeps the value of the code (R151). -/
theorem t32_toInt (raw : Reg16) : (t32 raw).toInt = raw.toInt / 4 := by
  rw [t32, BitVec.toInt_signExtend_of_le (by decide), dieCode_toInt]

/-- The range of K160 (R153). -/
theorem k160Int_range (raw : Reg16) : 2744 ≤ k160Int raw ∧ k160Int raw ≤ 84659 := by
  obtain ⟨hlo, hhi⟩ := dieCode_toInt_range raw
  rw [k160Int, k160Offset]
  omega

theorem k160_toNat (raw : Reg16) : ((k160 raw).toNat : Int) = k160Int raw := by
  obtain ⟨hlo, hhi⟩ := k160Int_range raw
  exact toNat_ofInt_of_fits (by omega) (by omega)

/-- Settles O38: the code is a quarter of the register value, and K160 fits its 17 bits. -/
theorem dieTemperatureScalingIsExact : Obligations.DieTemperatureScalingIsExact := by
  intro raw
  obtain ⟨hlo, hhi⟩ := k160Int_range raw
  have hk := k160_toNat raw
  have hcode : k160Int raw = 5 * (raw.toInt / 4) + 43704 := by rw [k160Int, dieCode_toInt, k160Offset]
  refine ⟨t32_toInt raw, hk.trans hcode, by omega, by omega, fun h0 => ?_⟩
  have : (k160 raw).toNat = 0 := congrArg BitVec.toNat h0
  omega

/-- The range of VQ (R154). -/
theorem vqInt_range (rawv : Reg16) : -4096000 ≤ vqInt rawv ∧ vqInt rawv ≤ 4095875 := by
  obtain ⟨hlo, hhi⟩ := reg16_toInt_range rawv
  rw [vqInt, vobjLsb]
  omega

theorem vq_toInt (rawv : Reg16) : (vq rawv).toInt = vqInt rawv := by
  obtain ⟨hlo, hhi⟩ := vqInt_range rawv
  exact toInt_ofInt_of_fits (by omega) (by omega)

/-- Settles O39: the product fits the 32 bits it is narrowed to. -/
theorem objectVoltageScalingIsExact : Obligations.ObjectVoltageScalingIsExact := by
  intro raw
  rw [vq_toInt]
  exact ⟨rfl, vqInt_range raw⟩

/-! ## The consumer's readings (R157) -/

/-- A ring entry widened to a result register keeps its value. -/
theorem sample_setWidth_toNat (k : Sample) : (k.setWidth 32).toNat = k.toNat :=
  BitVec.toNat_setWidth_of_le (by decide)

/-- Settles O40: each conversion of R157 is the scale of the exact integer the register holds. -/
theorem consumerReadingsAreTheDocumentsQuantities : Obligations.ConsumerReadingsAreTheDocumentsQuantities := by
  intro raw
  obtain ⟨-, hk, -⟩ := dieTemperatureScalingIsExact raw
  have hkelvin : ((k160 raw).toNat : ℚ) = 5 * ((raw.toInt / 4 : Int) : ℚ) + 43704 := by exact_mod_cast hk
  have hvolts : ((vq raw).toInt : ℚ) = 125 * (raw.toInt : ℚ) := by
    exact_mod_cast (objectVoltageScalingIsExact raw).1
  refine ⟨?_, ?_, ?_⟩
  · rw [celsiusOfT32, t32_toInt]; ring
  · rw [kelvinOfK160, celsiusOfT32, sample_setWidth_toNat, t32_toInt, hkelvin]; ring
  · rw [voltsOfVq, hvolts]; ring

/-! ## GETOBJ (R156) -/

/-- K160 as the rule writes it out. -/
theorem k160Int_eq_kelvin160 (raw : Reg16) : k160Int raw = kelvin160 raw := by
  rw [k160Int, dieCode_extract, kelvin160, k160Offset]

/-- K160 in a result register is the rule's integer, narrowed once. -/
theorem k160_setWidth (raw : Reg16) : (k160 raw).setWidth 32 = .ofInt 32 (kelvin160 raw) := by
  obtain ⟨hlo, hhi⟩ := k160Int_range raw
  apply BitVec.eq_of_toNat_eq
  have hres : ((BitVec.ofInt 32 (k160Int raw)).toNat : Int) = k160Int raw := toNat_ofInt_of_fits (by omega) (by omega)
  rw [sample_setWidth_toNat, ← k160Int_eq_kelvin160]
  exact_mod_cast (k160_toNat raw).trans hres.symm

/-- Settles O41: GETOBJ is its two reads, by the rules of a two-request command, and its results are K160 of T0 and VQ
of the voltage read. -/
theorem getobjAnswersTemperatureAndVoltage : Obligations.GetobjAnswersTemperatureAndVoltage := by
  intro id s
  simp only [exec, execGetobj]
  refine ⟨fun a b rest hu ha => ?_, fun a hu ha => ?_, fun b rest hu ha => ?_⟩
  · rw [twoRequests_goOn hu ha rfl, transact_cons rfl, k160_setWidth]
    rfl
  · rw [twoRequests_goOn hu ha rfl, transact_nil rfl, issue_eq]
    simp only [afterAnswer, hu]
    rfl
  · rw [twoRequests_resumed hu, transact_cons ha, k160_setWidth]
    rfl

end Sys2Proof.Machine
end

section
/-! PROOFS. The sample rings (spec/10_state.md R24, R25, spec/43_ring.md): who writes a ring, what the host reads back
from one, the slope of its four entries, GETOBJTC in closed form, and the window a series of GETOBJTC leaves. -/

namespace Sys2Proof.Machine

variable {i : Instr} {s t u : State} {r : BitVec 3}

/-! ## Who writes a ring (R25) -/

/-- The three commands that may write ring `r`. -/
def WritesRing (i : Instr) (r : BitVec 3) : Prop :=
  (∃ id, i = .getobjtc id r) ∨ (∃ idx val, i = .ringwr r idx val) ∨ i = .ringclr r

/-- The one effect on a ring is on the ring of a command that may write it. -/
theorem EffectChain.ring (h : EffectChain i s t) (r : BitVec 3) : t.ring r = s.ring r ∨ WritesRing i r := by
  induction h with
  | nil => exact .inl rfl
  | cons a _ ih =>
    cases a with
    | writesRing q v hi =>
      by_cases hq : r = q
      · exact .inr (hq ▸ hi)
      · simpa [ring_setRing_other v _ hq] using ih
    | issues | takesAnswer => simpa using ih
    | writesT0 | writesFr | writesSessErr => exact ih

theorem CommandEffect.ring (h : CommandEffect i s t) (r : BitVec 3) : t.ring r = s.ring r ∨ WritesRing i r := by
  cases h with
  | waits c _ => exact c.ring r
  | ends _ _ _ c _ _ => exact c.ring r

theorem RunsFrom.ring (h : RunsFrom s u) (r : BitVec 3) : u.ring r = s.ring r := by cases h <;> rfl

/-- A step keeps ring `r`, unless it is a reset or runs a command that may write it. -/
theorem step_ring (h : step s = .next t) (r : BitVec 3) :
    t.ring r = s.ring r ∨ s.rst = true ∨ ∃ i, decode t.cur = .command i ∧ WritesRing i r := by
  cases step_effect s t h with
  | reset hr => exact .inr (.inl hr)
  | idle _ _ _ => exact .inl rfl
  | runs _ hu i hd he =>
    have heff := exec_effect i _ t he
    rcases heff.ring r with e | hi
    · exact .inl (e.trans (hu.ring r))
    · exact .inr (.inr ⟨i, heff.cur ▸ hd, hi⟩)
  | illegal _ hu _ _ => exact .inl (hu.ring r)

/-- Settles O25: who writes a ring is `step_ring`, and the command it names is one of three. -/
theorem ringsChangeOnlyByTheirFourWriters : Obligations.RingsChangeOnlyByTheirFourWriters := by
  intro s t r h hne
  rcases (step_ring h r).resolve_left hne with hrst | ⟨_, hd, ⟨id, rfl⟩ | ⟨idx, val, rfl⟩ | rfl⟩
  · exact .inl hrst
  · exact .inr (.inl ⟨id, hd⟩)
  · exact .inr (.inr (.inl ⟨idx, val, hd⟩))
  · exact .inr (.inr (.inr hd))

/-! ## The host's access to a ring (R165, R166, R167) -/

/-- Settles O48: each command is one response, after its write to the ring. -/
theorem ringAccessCommands : Obligations.RingAccessCommands := fun _ _ _ _ => ⟨rfl, rfl, rfl⟩

/-- One entry of one ring is written; every other reads as before. -/
theorem get_ring_setRing_set (r q : BitVec 3) (i j : BitVec 2) (val : Sample) (s : State) :
    ((State.setRing r ((s.ring r).set i val) s).ring q).get j =
      if q = r ∧ j = i then val else (s.ring q).get j := by
  by_cases hq : q = r
  · subst hq
    by_cases hj : j = i
    · simp [hj]
    · simp [hj, sampleRing_get_set_other]
  · simp [hq, ring_setRing_other]

/-- Settles O49: RINGRD answers the entry, and RINGWR writes that one. -/
theorem ringWriteThenReadReturnsTheValue : Obligations.RingWriteThenReadReturnsTheValue := by
  intro r q i j val s
  refine ⟨_, _, _, rfl, rfl, rfl, ?_⟩
  rw [respond_res0, respond_res0, respond_ring, get_ring_setRing_set, apply_ite (BitVec.setWidth 32)]

/-! ## The slope (R162) -/

/-- A ring whose oldest entry is 0 is cold: it has no slope. -/
theorem slope_of_cold {h : SampleRing} (h0 : h.h0 = 0) : h.slope = 0 := if_pos h0

theorem slope_of_warm {h : SampleRing} (h0 : h.h0 ≠ 0) : h.slope =
    -3 * (h.h0.toNat : Int) - 1 * (h.h1.toNat : Int) + 1 * (h.h2.toNat : Int) + 3 * (h.h3.toNat : Int) := if_neg h0

/-- The bound holds because an entry is below 2^17 and the weights of each sign add up to 4. -/
theorem slope_natAbs_le (h : SampleRing) : h.slope.natAbs ≤ 524284 := by
  have b0 := h.h0.isLt
  have b1 := h.h1.isLt
  have b2 := h.h2.isLt
  have b3 := h.h3.isLt
  by_cases h0 : h.h0 = 0
  · simp [slope_of_cold h0]
  · rw [slope_of_warm h0]
    omega

/-- The document's slope in Kelvin per sample is the weighted sum of the four temperatures. -/
theorem slopeKelvin_of_warm {h : SampleRing} (h0 : h.h0 ≠ 0) : slopeKelvin h.slope =
    -(3 / 10) * kelvinOfK160 (h.h0.setWidth 32) - (1 / 10) * kelvinOfK160 (h.h1.setWidth 32)
      + (1 / 10) * kelvinOfK160 (h.h2.setWidth 32) + (3 / 10) * kelvinOfK160 (h.h3.setWidth 32) := by
  simp only [slopeKelvin, slope_of_warm h0, kelvinOfK160, sample_setWidth_toNat]
  push_cast
  ring

/-- A sample is never 0, so a ring of samples is warm (R153). -/
theorem k160_ne_zero (raw : Reg16) : k160 raw ≠ 0 := by
  obtain ⟨-, -, -, -, hne⟩ := dieTemperatureScalingIsExact raw
  exact hne

/-- The weights add up to 0, so the Kelvin offset of the samples cancels. -/
theorem slope_of_samples (x0 x1 x2 x3 : Reg16) : SampleRing.slope ⟨k160 x0, k160 x1, k160 x2, k160 x3⟩ =
    5 * (-3 * (dieCode x0).toInt - (dieCode x1).toInt + (dieCode x2).toInt + 3 * (dieCode x3).toInt) := by
  rw [slope_of_warm (k160_ne_zero x0)]
  simp only [k160_toNat, k160Int]
  ring

/-- Settles O44: cold and warm rings, the bound and its extreme, and the offset. -/
theorem slopeNumeratorIsTheWeightedSum : Obligations.SlopeNumeratorIsTheWeightedSum :=
  ⟨fun _ => slope_of_cold, fun _ h0 => ⟨slope_of_warm h0, slopeKelvin_of_warm h0⟩, slope_natAbs_le, by decide,
    slope_of_samples⟩

/-! ## Shift and append (R161) -/

/-- Settles O42: `append` moves each entry down by one. -/
theorem appendShiftsTheRing : Obligations.AppendShiftsTheRing := fun _ _ => ⟨rfl, rfl, rfl, rfl⟩

theorem k160_eq_ofInt_kelvin160 (raw : Reg16) : k160 raw = .ofInt 17 (kelvin160 raw) := by
  rw [k160, k160Int_eq_kelvin160]

/-- The append of a new die temperature is the shift of the rule. -/
theorem append_k160_eq_shifted (s : State) (r : BitVec 3) (raw : Reg16) :
    (s.ring r).append (k160 raw) = shifted s r raw := by
  rw [k160_eq_ofInt_kelvin160, shifted, SampleRing.append]

/-- The newest sample of a shifted ring, in a result register. -/
theorem shifted_newest (s : State) (r : BitVec 3) (raw : Reg16) :
    (shifted s r raw).h3.setWidth 32 = .ofInt 32 (kelvin160 raw) := by
  rw [← append_k160_eq_shifted, ← k160_setWidth, SampleRing.append]

/-! ## GETOBJTC (R163, R164) -/

theorem slope_eq_slopeOf (h : SampleRing) : h.slope = slopeOf h.h0 h.h1 h.h2 h.h3 := by
  rw [SampleRing.slope, slopeOf, one_mul, one_mul]

/-- The corrected voltage as the rule writes it out. -/
theorem correctedVoltage_eq_correctedVq (h : SampleRing) (rawv : Reg16) :
    BitVec.ofInt 32 (correctedVoltage h rawv) = correctedVq h rawv := by
  rw [correctedVoltage, slope_eq_slopeOf, vqInt, vobjLsb, tcCoeff, correctedVq]

/-- Settles O43: GETOBJTC is its two reads, by the rules of a two-request command; the first shifts the ring, and the
response is taken from the ring as it then stands. -/
theorem getobjtcShiftsTheRingAndCorrects : Obligations.GetobjtcShiftsTheRingAndCorrects := by
  intro id r s
  simp only [exec, execGetobjtc]
  refine ⟨fun a b rest hu ha => ?_, fun a hu ha => ?_, fun b rest hu ha => ?_⟩
  · rw [twoRequests_goOn hu ha rfl, transact_cons rfl, ← takeAnswer_issue, takeAnswer_ring, issue_ring,
      ring_setRing_same, append_k160_eq_shifted, correctedVoltage_eq_correctedVq, shifted_newest, takeAnswer_issue]
    rfl
  · rw [twoRequests_goOn hu ha rfl, transact_nil rfl, issue_eq, append_k160_eq_shifted]
    simp only [afterAnswer, hu]
    rfl
  · rw [twoRequests_resumed hu, transact_cons ha, correctedVoltage_eq_correctedVq]
    rfl

/-- On a cold ring the correction is 0 (R253). -/
theorem correctedVq_of_cold {h : SampleRing} (h0 : h.h0 = 0) (rawv : Reg16) :
    correctedVq h rawv = .ofInt 32 (125 * rawv.toInt) := by
  rw [correctedVq, ← slope_eq_slopeOf, slope_of_cold h0, mul_zero, add_zero]

/-- Settles O47: the two commands answer alike but for the correction, and the shifted ring is cold. -/
theorem coldRingGivesTheUncorrectedVoltage : Obligations.ColdRingGivesTheUncorrectedVoltage := by
  intro id r s a b rest hu ha hcold
  obtain ⟨htc, -, -⟩ := getobjtcShiftsTheRingAndCorrects id r s
  obtain ⟨hobj, -, -⟩ := getobjAnswersTemperatureAndVoltage id s
  have hvolt : correctedVq (shifted s r a.word) b.word = .ofInt 32 (125 * b.word.toInt) := correctedVq_of_cold hcold _
  exact ⟨_, _, htc a b rest hu ha, hobj a b rest hu ha, rfl, rfl, hvolt, rfl, rfl⟩

/-! ## The window (R168) -/

/-- The ring `h` after the die temperatures of a series of GETOBJTC have been appended to it. -/
def appendSamples (h : SampleRing) (cs : List (BitVec 6 × Answer × Answer)) : SampleRing :=
  cs.foldl (fun h c => h.append (k160 c.2.1.word)) h

/-- The first command of a series appends its die temperature to the ring. -/
theorem getobjtcSeries_cons (r : BitVec 3) (c : BitVec 6 × Answer × Answer) (more : List (BitVec 6 × Answer × Answer))
    (s : State) : ∃ t, getobjtcSeries r (c :: more) s = getobjtcSeries r more t ∧
      t.rings = s.rings.set r.toNat ((s.ring r).append (k160 c.2.1.word)) := by
  obtain ⟨id, a, b⟩ := c
  obtain ⟨htc, -, -⟩ := getobjtcShiftsTheRingAndCorrects id r
    { s with busy := true, useq := 0, port := none, answers := [a, b] }
  refine ⟨_, by rw [getobjtcSeries, htc a b [] rfl rfl], ?_⟩
  rw [append_k160_eq_shifted]
  rfl

/-- Every command of a series appends its die temperature to the one ring. -/
theorem getobjtcSeries_ring (r : BitVec 3) (cs : List (BitVec 6 × Answer × Answer)) (s : State) :
    (getobjtcSeries r cs s).ring r = appendSamples (s.ring r) cs ∧
    ∀ q, q ≠ r → (getobjtcSeries r cs s).ring q = s.ring q := by
  induction cs generalizing s with
  | nil => exact ⟨rfl, fun _ _ => rfl⟩
  | cons c more ih =>
    obtain ⟨t, hseries, hrings⟩ := getobjtcSeries_cons r c more s
    obtain ⟨hring, hother⟩ := ih t
    have hset : ∀ q, t.ring q = (State.setRing r ((s.ring r).append (k160 c.2.1.word)) s).ring q := ring_congr hrings
    rw [hseries]
    refine ⟨?_, fun q hq => ?_⟩
    · rw [hring, hset, ring_setRing_same]
      rfl
    · rw [hother q hq, hset, ring_setRing_other _ _ hq]

/-- Settles O46: four appends leave nothing of what the ring held before. -/
theorem windowHoldsTheLastFourSamples : Obligations.WindowHoldsTheLastFourSamples := by
  intro s r before w x y z
  obtain ⟨hring, hother⟩ := getobjtcSeries_ring r (before ++ [w, x, y, z]) s
  refine ⟨?_, hother⟩
  rw [hring, appendSamples, List.foldl_append]
  rfl

end Sys2Proof.Machine
end

section
/-! PROOFS. The CRC-8 unit (spec/44_crc.md): the generic checksum bit by bit, what it detects and why, the two CRC
commands, and the check of SHTTEMP. Detection rests on one fact: with an odd polynomial a shift loses nothing, so that
the remainder after a byte determines the remainder before it and the byte from each other. -/

namespace Sys2Proof.Machine

variable {poly : Byte}

/-! ## The generic checksum (R175) -/

/-- The loop of R175 is the iteration of one shift. -/
theorem crcShifts_eq_iterate (poly : Byte) (n : Nat) (rem : Byte) : crcShifts poly n rem = (crcShift poly)^[n] rem := by
  induction n generalizing rem with
  | zero => rfl
  | succ n ih => rw [crcShifts, ih, Function.iterate_succ_apply]

/-- The bit that goes out in a shift is bit 7. -/
theorem crcShift_eq (poly : Byte) :
    crcShift poly = fun rem => if rem.getLsbD 7 then (rem <<< 1) ^^^ poly else rem <<< 1 := by
  funext rem
  rw [crcShift, BitVec.msb_eq_getLsbD_last]

/-- The last byte is the last to go through the remainder. -/
theorem crc8_succ {bytes : List Byte} {n : Nat} (h : n < bytes.length) (poly init : Byte) :
    crc8 bytes (n + 1) poly init = crcByte poly (crc8 bytes n poly init) bytes[n] := by
  rw [crc8, List.take_succ_eq_append_getElem h, List.foldl_append]
  rfl

/-- Settles O50: the last of `n + 1` bytes goes through eight shifts, each written with bit 7. -/
theorem crcEightIsTheBitwiseChecksum : Obligations.CrcEightIsTheBitwiseChecksum := by
  refine ⟨fun _ _ _ => rfl, fun bytes n poly init h => ?_⟩
  rw [crc8_succ h, crcByte, crcShifts_eq_iterate, crcShift_eq]

/-! ## Residue and detection (R176, R179) -/

@[simp] theorem crcShift_zero (poly : Byte) : crcShift poly 0 = 0 := by simp [crcShift]

/-- A byte equal to the remainder clears it. -/
theorem crcByte_self (poly rem : Byte) : crcByte poly rem rem = 0 := by
  rw [crcByte, BitVec.xor_self, crcShifts_eq_iterate]
  exact Function.iterate_fixed (crcShift_zero poly) 8

/-- With an odd polynomial, bit 0 of a shifted remainder tells which bit went out. -/
theorem crcShift_lsb (hodd : poly.getLsbD 0 = true) (rem : Byte) : (crcShift poly rem).getLsbD 0 = rem.msb := by
  cases hb : rem.msb <;> simp [crcShift, hb, hodd]

/-- With an odd polynomial a shift loses nothing. -/
theorem crcShift_injective (hodd : poly.getLsbD 0 = true) : Function.Injective (crcShift poly) := by
  intro a b h
  have hmsb : a.msb = b.msb := by rw [← crcShift_lsb hodd a, h, crcShift_lsb hodd b]
  have hshift : a <<< 1 = b <<< 1 := by
    unfold crcShift at h
    rw [hmsb] at h
    split at h
    · exact (BitVec.xor_left_inj poly).1 h
    · exact h
  apply BitVec.eq_of_getLsbD_eq
  intro k hk
  rcases Nat.lt_succ_iff_lt_or_eq.1 hk with hlow | rfl
  · simpa [hk, show k + 1 < 8 by omega] using congrArg (·.getLsbD (k + 1)) hshift
  · simpa [BitVec.msb_eq_getLsbD_last] using hmsb

/-- With an odd polynomial, the remainder after a byte determines what the byte was XORed to. -/
theorem crcByte_eq_iff (hodd : poly.getLsbD 0 = true) {rem rem' b b' : Byte} :
    crcByte poly rem b = crcByte poly rem' b' ↔ rem ^^^ b = rem' ^^^ b' := by
  simp only [crcByte, crcShifts_eq_iterate]
  exact ((crcShift_injective hodd).iterate 8).eq_iff

theorem crcPoly_odd : crcPoly.getLsbD 0 = true := by decide

/-- The checksum of a pair, byte by byte (R176). -/
theorem crc_pair (x y : Byte) : crc [x, y] 2 = crcByte crcPoly (crcByte crcPoly crcInit x) y := rfl

/-- Another first byte gives another checksum. -/
theorem crc_pair_first_inj {x x' y : Byte} : crc [x', y] 2 = crc [x, y] 2 ↔ x' = x := by
  rw [crc_pair, crc_pair, crcByte_eq_iff crcPoly_odd, BitVec.xor_left_inj, crcByte_eq_iff crcPoly_odd,
    BitVec.xor_right_inj]

/-- Another second byte gives another checksum. -/
theorem crc_pair_second_inj {x y y' : Byte} : crc [x, y'] 2 = crc [x, y] 2 ↔ y' = y := by
  rw [crc_pair, crc_pair, crcByte_eq_iff crcPoly_odd, BitVec.xor_right_inj]

/-- One flipped bit makes another byte. -/
theorem flippedBit_ne {k : Nat} (hk : k < 8) (x : Byte) : x ^^^ (1 <<< k) ≠ x := by
  have hbit : ∀ k < 8, (1 : Byte) <<< k ≠ 0 := by decide
  intro h
  exact hbit k hk ((BitVec.xor_right_inj x).1 (h.trans BitVec.xor_zero.symm))

/-- Settles O51: the checksum cancels the remainder; with one byte of a pair it determines the other. -/
theorem checksumDetectsEverySingleBitFlip : Obligations.ChecksumDetectsEverySingleBitFlip := fun x y =>
  ⟨crcByte_self crcPoly (crc [x, y] 2), fun _ hk =>
    ⟨fun h => flippedBit_ne hk x (crc_pair_first_inj.1 h), fun h => flippedBit_ne hk y (crc_pair_second_inj.1 h)⟩⟩

/-! ## The commands (R177, R178, R188) -/

/-- Bytes beyond the first `len` do not count (R177). -/
theorem crc8_take (bytes : List Byte) (len : Nat) (poly init : Byte) :
    crc8 (bytes.take len) len poly init = crc8 bytes len poly init := by
  rw [crc8, List.take_take, Nat.min_self, crc8]

theorem execCrcchk_good {b0 b1 sent : Byte} {s : State} (h : crc [b0, b1] 2 = sent) :
    execCrcchk b0 b1 sent s = .next (respond (sent.setWidth 32) 0 s) := by
  rw [execCrcchk, if_neg (not_not.2 h), h]

theorem execCrcchk_bad {b0 b1 sent : Byte} {s : State} (h : crc [b0, b1] 2 ≠ sent) :
    execCrcchk b0 b1 sent s = .next (raiseE eCrc s) := by
  rw [execCrcchk, if_pos h]

/-- Settles O52: each command is one response; CRCCHK compares first. -/
theorem crcCommandsAnswerTheChecksum : Obligations.CrcCommandsAnswerTheChecksum := by
  intro len b0 b1 b2 s
  refine ⟨?_, execCrcchk_good, execCrcchk_bad⟩
  rw [crc8_take]
  rfl

/-- A temperature pair that does not match its checksum is not decoded (R188). -/
theorem decodeTemp_bad {f : Frame} (h : crc [f.b0, f.b1] 2 ≠ f.b2) (s : State) : decodeTemp f s = raiseE eCrc s :=
  if_pos h

/-- A frame of six bytes goes to `finish`, and to FR (R187). -/
theorem frameRead_sixBytes {finish : Frame → State → State} {a : Answer} (h : a.cnt = 6) (s : State) :
    frameRead finish a s = finish a.bytes { s with fr := a.bytes } :=
  if_neg (not_not.2 h)

/-- Settles O57: a flipped bit makes another checksum, so the frame's pair is not decoded. -/
theorem flippedTemperatureBitGivesChecksumError : Obligations.FlippedTemperatureBitGivesChecksumError := by
  intro s a b rest x y k hu he hans ha hb hk hsum hflip
  obtain ⟨-, hdetect⟩ := checksumDetectsEverySingleBitFlip x y
  obtain ⟨hfirst, hsecond⟩ := hdetect k hk
  have hbad : crc [b.bytes.b0, b.bytes.b1] 2 ≠ b.bytes.b2 := by
    rcases hflip with ⟨h0, h1⟩ | ⟨h0, h1⟩ <;> rwa [h0, h1, hsum]
  refine ⟨_, rfl, ?_⟩
  rw [measure_answered hu he hans ha, frameRead_sixBytes hb, decodeTemp_bad hbad]
  exact ⟨rfl, rfl, rfl, rfl, rfl⟩

end Sys2Proof.Machine
end

section
/-! PROOFS. The SHT31 sequencer (spec/45_sht31.md): the outcomes of SHTINIT, the errors of a measurement in the order of
its tests, the measurements that reach their frame, and the exact integers behind the two readings. SHTTEMP and SHTHUM
read their frame alike, at once or resumed, and differ only in the pair they check and decode. -/

namespace Sys2Proof.Machine

variable {s : State} {a b : Answer} {rest : List Answer} {reqs : List Request} {finish : Frame → State → State}

/-! ## SHTINIT (R186) -/

/-- Past its first answer a command does not start again. -/
theorem afterAnswer_useq_ne_zero {r : Request} (hu : s.useq = 0) : (afterAnswer s rest r).useq ≠ 0 := by
  simp [afterAnswer, hu]

/-- A failed open ends SHTINIT with no select (R186, D11). -/
theorem execShtinit_openFails (hu : s.useq = 0) (h : s.answers = a :: rest) (ha : a.ok = false) :
    execShtinit s = .next { ended s eOpen 0 0 rest (s.requestsWith .devOpen) with sessErr := eOpen } := by
  rw [execShtinit, twoRequests_stop hu h (if_neg (by simp [ha]))]
  rfl

/-- After a successful open SHTINIT goes on to the select. -/
theorem execShtinit_opens (hu : s.useq = 0) (h : s.answers = a :: rest) (ha : a.ok = true) :
    execShtinit s = execShtinit (afterAnswer s rest .devOpen) := by
  rw [execShtinit, execShtinit, twoRequests_goOn hu h (if_pos ha), twoRequests_resumed (afterAnswer_useq_ne_zero hu)]

/-- The answer of the select ends SHTINIT and is recorded in SESS_ERR and in STATUS (R186, D11). -/
theorem execShtinit_selects (hu : s.useq ≠ 0) (h : s.answers = b :: rest) :
    execShtinit s = .next { ended s (if b.ok then 0 else -2) 0 0 rest (s.requestsWith (.devSelect 0x44)) with
      sessErr := if b.ok then 0 else -2 } := by
  rw [execShtinit, twoRequests_resumed hu, transact_cons h]
  cases b.ok <;> rfl

/-- With no answer to the select, SHTINIT waits for it. -/
theorem execShtinit_waits (hu : s.useq ≠ 0) (h : s.answers = []) :
    execShtinit s = .next (issue (.devSelect 0x44) s) := by
  rw [execShtinit, twoRequests_resumed hu, transact_nil h]
  rfl

/-- Settles O53: the open fails, or SHTINIT goes on to the select, which waits, fails or succeeds. -/
theorem shtinitRecordsItsOutcome : Obligations.ShtinitRecordsItsOutcome := by
  intro s
  refine ⟨fun a rest hu h ha => execShtinit_openFails hu h ha, fun a b rest hu h ha => ?_, fun a hu h ha => ?_,
    fun b rest hu h => execShtinit_selects hu h⟩
  · exact (execShtinit_opens hu h ha).trans (execShtinit_selects (afterAnswer_useq_ne_zero hu) rfl)
  · rw [exec, execShtinit_opens hu h ha, execShtinit_waits (afterAnswer_useq_ne_zero hu) rfl, issue_eq]
    simp only [afterAnswer, hu]
    rfl

/-! ## A measurement up to its frame (R187) -/

/-- A measurement gets the answer `b` to its frame read, at once or resumed, with the answers `rest` still unused and the
requests `reqs` issued in all. -/
def FrameArrives (s : State) (b : Answer) (rest : List Answer) (reqs : List Request) : Prop :=
  (∃ a, s.useq = 0 ∧ s.sessErr = 0 ∧ s.answers = a :: b :: rest ∧ a.cnt = 2 ∧
    reqs = s.requestsWith (.devWrite [0x2C, 0x06] 2) ++ [.devRead 6]) ∨
  (s.useq ≠ 0 ∧ s.answers = b :: rest ∧ reqs = s.requestsWith (.devRead 6))

/-- A write count other than 2 ends a measurement with no read (R187). -/
theorem measure_writeFails (hu : s.useq = 0) (he : s.sessErr = 0) (h : s.answers = a :: rest) (ha : a.cnt ≠ 2) :
    measure finish s = ended s eWrite 0 0 rest (s.requestsWith (.devWrite shtCmd 2)) := by
  rw [measure_twoRequests (.inr he), twoRequests_stop hu h (if_pos ha)]
  rfl

/-- A resumed measurement goes on to the answer of its read. -/
theorem measure_resumed_answered (hu : s.useq ≠ 0) (h : s.answers = b :: rest) :
    measure finish s = frameRead finish b (afterAnswer s rest (.devRead shtFrameLen)) := by
  rw [measure_twoRequests (.inl hu), twoRequests_resumed hu, transact_cons h]
  rfl

/-- At once or resumed, a measurement ends with the answer of its frame read. -/
theorem measure_frameArrives (h : FrameArrives s b rest reqs) : ∃ u, measure finish s =
    frameRead finish b { s with answers := rest, port := none, useq := u, requests := reqs } := by
  rcases h with ⟨a, hu, he, hans, ha, rfl⟩ | ⟨hu, hans, rfl⟩
  · exact ⟨_, measure_answered hu he hans ha⟩
  · exact ⟨_, measure_resumed_answered hu hans⟩

/-- A read count other than 6 ends a measurement, with the bytes in FR (R187, log 14). -/
theorem measure_readFails (h : FrameArrives s b rest reqs) (hb : b.cnt ≠ 6) :
    measure finish s = { ended s eRead 0 0 rest reqs with fr := b.bytes } := by
  obtain ⟨u, hm⟩ := measure_frameArrives h
  rw [hm, frameRead, if_pos hb]
  rfl

/-- SHTTEMP and SHTHUM are the same micro-sequence, each with its own end. -/
theorem exec_measurement {i : Instr} (h : i = .shttemp ∨ i = .shthum) :
    ∃ finish, ∀ s, exec i s = .next (measure finish s) := by
  rcases h with rfl | rfl
  · exact ⟨decodeTemp, fun _ => rfl⟩
  · exact ⟨decodeHum, fun _ => rfl⟩

/-- Settles O54: the session, the write count and the read count, each a failure of `measure`. -/
theorem measurementErrorsComeInOrder : Obligations.MeasurementErrorsComeInOrder := by
  intro i s hi
  obtain ⟨finish, hexec⟩ := exec_measurement hi
  simp only [hexec]
  refine ⟨fun hu hp he => ?_, fun a rest hu he h ha => ?_, fun a b rest hu he h ha hb => ?_, fun b rest hu h hb => ?_⟩
  · rw [measure_noSession hu he, raiseE_eq_ended hp]
  · exact congrArg _ (measure_writeFails hu he h ha)
  · exact congrArg _ (measure_readFails (.inl ⟨a, hu, he, h, ha, rfl⟩) hb)
  · exact congrArg _ (measure_readFails (.inr ⟨hu, h, rfl⟩) hb)

/-! ## The two measurements (R188, R189) -/

/-- SHTTEMP's check and its result, written as in R188. -/
theorem decodeTemp_eq (f : Frame) (s : State) : decodeTemp f s = if crc [f.b0, f.b1] 2 = f.b2 then
    respond (.ofInt 32 (175 * ((f.b0 ++ f.b1).toNat : Int) - 2949075)) 0 s else raiseE eCrc s := ite_not ..

/-- SHTHUM's check and its result, written as in R189. -/
theorem decodeHum_eq (f : Frame) (s : State) : decodeHum f s = if crc [f.b3, f.b4] 2 = f.b5 then
    respond (.ofInt 32 (100 * ((f.b3 ++ f.b4).toNat : Int))) 0 s else raiseE eCrc s := ite_not ..

/-- A measurement with a frame of six bytes ends as its own check `good` of the frame says. -/
theorem measure_checksFrame {good : Prop} [Decidable good] {r0 : BitVec 32}
    (hf : ∀ u, finish b.bytes u = if good then respond r0 0 u else raiseE eCrc u) (hb : b.cnt = 6)
    (h : FrameArrives s b rest reqs) : measure finish s =
      { (if good then ended s 0 r0 0 rest reqs else ended s (-5) 0 0 rest reqs) with fr := b.bytes } := by
  obtain ⟨u, hm⟩ := measure_frameArrives h
  rw [hm, frameRead_sixBytes hb, hf]
  split <;> rfl

/-- Settles O55: the check of SHTTEMP is that of the temperature pair. -/
theorem shttempChecksAndDecodesItsPair : Obligations.ShttempChecksAndDecodesItsPair := fun _ b _ _ hb h =>
  congrArg Host.Outcome.next (measure_checksFrame (decodeTemp_eq b.bytes) hb h)

/-- Settles O56: the check of SHTHUM is that of the humidity pair. -/
theorem shthumChecksAndDecodesItsPair : Obligations.ShthumChecksAndDecodesItsPair := fun _ b _ _ hb h =>
  congrArg Host.Outcome.next (measure_checksFrame (decodeHum_eq b.bytes) hb h)

/-! ## The readings (R188, R189, R190) -/

theorem tempNumerator_eq (raw : Reg16) : tempNumerator raw = 175 * (raw.toNat : Int) - 2949075 := rfl

theorem humNumerator_eq (raw : Reg16) : humNumerator raw = 100 * (raw.toNat : Int) := rfl

/-- The range of SHTTEMP's numerator: −45 °C to 130 °C. -/
theorem tempNumerator_range (raw : Reg16) : -2949075 ≤ tempNumerator raw ∧ tempNumerator raw ≤ 8519550 := by
  have hraw := raw.isLt
  rw [tempNumerator_eq]
  omega

/-- The range of SHTHUM's numerator: 0 %RH to 100 %RH. -/
theorem humNumerator_range (raw : Reg16) : 0 ≤ humNumerator raw ∧ humNumerator raw ≤ 6553500 := by
  have hraw := raw.isLt
  rw [humNumerator_eq]
  omega

/-- The signed result register holds SHTTEMP's numerator. -/
theorem tempNumerator_toInt (raw : Reg16) : (BitVec.ofInt 32 (tempNumerator raw)).toInt = tempNumerator raw := by
  obtain ⟨hlo, hhi⟩ := tempNumerator_range raw
  exact toInt_ofInt_of_fits (by omega) (by omega)

/-- The unsigned result register holds SHTHUM's numerator. -/
theorem humNumerator_toNat (raw : Reg16) : ((BitVec.ofInt 32 (humNumerator raw)).toNat : Int) = humNumerator raw := by
  obtain ⟨hlo, hhi⟩ := humNumerator_range raw
  exact toNat_ofInt_of_fits hlo (by omega)

theorem celsiusOfSht_tempNumerator (raw : Reg16) :
    celsiusOfSht (.ofInt 32 (tempNumerator raw)) = -45 + 175 * ((raw.toNat : ℚ) / 65535) := by
  rw [celsiusOfSht, tempNumerator_toInt, tempNumerator_eq]
  push_cast
  ring

theorem humidityOfSht_humNumerator (raw : Reg16) :
    humidityOfSht (.ofInt 32 (humNumerator raw)) = 100 * ((raw.toNat : ℚ) / 65535) := by
  have hres : ((BitVec.ofInt 32 (humNumerator raw)).toNat : ℚ) = 100 * (raw.toNat : ℚ) := by
    exact_mod_cast (humNumerator_toNat raw).trans (humNumerator_eq raw)
  rw [humidityOfSht, hres]
  ring

/-- Settles O59: each numerator fits its result register, and over 65535 it is the document's formula. -/
theorem shtDecodeIsExact : Obligations.ShtDecodeIsExact := by
  intro raw
  obtain ⟨htlo, hthi⟩ := tempNumerator_range raw
  obtain ⟨hhlo, hhhi⟩ := humNumerator_range raw
  exact ⟨tempNumerator_toInt raw, humNumerator_toNat raw, by omega, by omega, celsiusOfSht_tempNumerator raw,
    humidityOfSht_humNumerator raw⟩

end Sys2Proof.Machine
end

section
/-! PROOFS. Errors and aborts (spec/60_exceptions.md): every step has a next state, and the commands that can end with a
non-zero status are those whose rule raises an error. -/

namespace Sys2Proof.Machine

variable {i : Instr} {s t : State}

/-! ## Every step goes on (R232) -/

/-- What stands in CUR has a next state: a command is a micro-sequence, and an illegal word ends with its error. -/
theorem runCur_answers_next (s : State) : ∃ t, runCur s = .next t := by
  cases hd : decode s.cur with
  | command i =>
    obtain ⟨f, hexec, _⟩ := exec_microSequence i
    exact ⟨f s, (runCur_of_command hd).trans (hexec s)⟩
  | illegal why => exact ⟨_, runCur_of_illegal hd⟩

/-- Settles O10: a step is a reset, runs CUR (of a busy block or with the word just accepted), or stays idle. -/
theorem noStepFaultsOrIsRefused : Obligations.NoStepFaultsOrIsRefused := by
  intro s
  cases hr : s.rst with
  | true => exact ⟨_, step_of_rst hr⟩
  | false =>
    cases hb : s.busy with
    | true =>
      rw [step_of_busy hr hb]
      exact runCur_answers_next _
    | false =>
      cases hc : s.cmds with
      | nil => exact ⟨_, step_of_idle hr hb hc⟩
      | cons w rest =>
        rw [step_of_word hr hb hc]
        exact runCur_answers_next _

/-! ## Who can end with an error (R215, R216) -/

/-- Only CRCCHK and the SHT31 commands have an error to raise: every other command that ended did so with status 0. -/
theorem CommandEffect.status_of_ended (h : CommandEffect i s t) (hs : s.busy = true) (ht : t.busy = false) :
    t.status = 0 ∨ (∃ a b c, i = .crcchk a b c) ∨ i = .shtinit ∨ i = .shttemp ∨ i = .shthum := by
  cases h with
  | waits c _ => simp [c.keeps.1, hs] at ht
  | ends code r0 r1 _ _ hcode => exact hcode

/-- Settles O30: the command is none of those that have an error to raise. -/
theorem transportFailuresNeverSurface : Obligations.TransportFailuresNeverSurface := by
  intro i s t hcrc hinit htemp hhum hs h ht
  rcases (exec_effect i s t h).status_of_ended hs ht with h0 | ⟨b0, b1, c, hi⟩ | hi | hi | hi
  · exact h0
  · exact absurd hi (hcrc b0 b1 c)
  · exact absurd hi hinit
  · exact absurd hi htemp
  · exact absurd hi hhum

end Sys2Proof.Machine
end

section
/-! PROOFS. The corrected voltage (spec/43_ring.md rule R163): its range is that of the raw voltage widened by the
largest correction, so it fits the result register, and one unit of the slope is 148 units of the voltage. -/

namespace Sys2Proof.Machine

variable (h : SampleRing) (raw : Reg16)

theorem correctedVoltage_eq : correctedVoltage h raw = vqInt raw + 148 * h.slope := rfl

/-- The extreme raw voltage and the extreme correction add up. -/
theorem correctedVoltage_natAbs_le : (correctedVoltage h raw).natAbs ≤ 81690032 := by
  have hslope := slope_natAbs_le h
  obtain ⟨hlo, hhi⟩ := vqInt_range raw
  rw [correctedVoltage_eq]
  omega

/-- The signed result register holds the corrected voltage. -/
theorem correctedVoltage_toInt : (BitVec.ofInt 32 (correctedVoltage h raw)).toInt = correctedVoltage h raw := by
  have hfits := correctedVoltage_natAbs_le h raw
  exact toInt_ofInt_of_fits (by omega) (by omega)

/-- The slope unit of 1/1600 K per sample times 2.96e-4 V is 148 units of 1.25 nV. -/
theorem voltsOfVq_correctedVoltage : voltsOfVq (.ofInt 32 (correctedVoltage h raw)) =
    voltsOfVq (vq raw) + slopeKelvin h.slope * (296 / 1000000) := by
  rw [voltsOfVq, voltsOfVq, correctedVoltage_toInt, vq_toInt, correctedVoltage_eq, slopeKelvin]
  push_cast
  ring

/-- Settles O45: the sum is exact, its bound lies within 32 bits, and the units agree. -/
theorem correctedVoltageFitsAndIsExact : Obligations.CorrectedVoltageFitsAndIsExact := fun h raw =>
  ⟨correctedVoltage_eq h raw, correctedVoltage_natAbs_le h raw, correctedVoltage_toInt h raw,
    voltsOfVq_correctedVoltage h raw⟩

end Sys2Proof.Machine
end
